-- ==== Sys2Proof/Word.lean ====
section
/-!
DEFINITION. The words, bytes and blocks the core works on (spec/00_scope.md section 5.1,
spec/20_memory.md R47): all unsigned, a block always eight whole bytes.
-/

namespace Sys2Proof

/-- A byte of the command port. -/
abbrev Byte := BitVec 8

/-- Four bits: an entry of the substitution ROM, or one nibble of a word (R46). -/
abbrev Nibble := BitVec 4

/-- A 32-bit word of the datapath or of the key file. -/
abbrev Word := BitVec 32

/-- Four consecutive bytes, `b0` the first delivered. -/
structure Half where
  b0 : Byte
  b1 : Byte
  b2 : Byte
  b3 : Byte
  deriving DecidableEq, Repr

/-- A block of exactly eight bytes (R47): `first` is `X[0..3]`, `last` is `X[4..7]`. -/
structure Block where
  first : Half
  last : Half
  deriving DecidableEq, Repr

end Sys2Proof
end

