-- ==== Sys2Proof/Syntax.lean ====
section
/-!
DEFINITION. The commands of the core, one constructor per row of spec/opcode_table.json
(spec/30_encoding.md section 1), with the two field types a START carries in its command byte.
-/

namespace Sys2Proof

/-- The four modes of operation (R2, R15, R63). -/
inductive Mode where
  | ecb
  | cbc
  | cfb
  | ofb
  deriving DecidableEq, Repr

/-- The direction of a stream, what the host asked for (R16, R64). Not to be confused with the
round-key order of the engine. -/
inductive Dir where
  | enc
  | dec
  deriving DecidableEq, Repr

/-- A command that the core executes. The payload of LDKEY, LDIV and BLOCK is kept as the bytes of
its frame, whatever their number: the command itself checks the number (R90, R140, R142). A START
with a payload is an illegal command (R67), so START has none. -/
inductive Instr where
  /-- LDKEY: load the key (R90). -/
  | ldkey (pl : List Byte)
  /-- LDIV: load the initialization vector (R140). -/
  | ldiv (pl : List Byte)
  /-- START ECB, ENC (R141). -/
  | startEcbEnc
  /-- START CBC, ENC (R141). -/
  | startCbcEnc
  /-- START CFB, ENC (R141). -/
  | startCfbEnc
  /-- START OFB, ENC (R141). -/
  | startOfbEnc
  /-- START ECB, DEC (R141). -/
  | startEcbDec
  /-- START CBC, DEC (R141). -/
  | startCbcDec
  /-- START CFB, DEC (R141). -/
  | startCfbDec
  /-- START OFB, DEC (R141). -/
  | startOfbDec
  /-- BLOCK: process one block of the open stream (R142). -/
  | block (pl : List Byte)
  deriving DecidableEq, Repr

end Sys2Proof
end

