-- ==== Sys2Proof/WellFormed.lean ====
section
/-!
DEFINITION. Which commands can be put in a frame: the payload length is an unsigned 8-bit count
(spec/30_encoding.md R60, R65; R175 for a key or IV longer than 255 bytes).
-/

namespace Sys2Proof

/-- The payload bytes of a command, none for a START. -/
def Instr.payload : Instr → List Byte
  | .ldkey pl => pl
  | .ldiv pl => pl
  | .startEcbEnc => []
  | .startCbcEnc => []
  | .startCfbEnc => []
  | .startOfbEnc => []
  | .startEcbDec => []
  | .startCbcDec => []
  | .startCfbDec => []
  | .startOfbDec => []
  | .block pl => pl

/-- The command fits in a frame: its payload length fits in the `LEN` byte (R60). -/
def Instr.wellFormed (i : Instr) : Bool :=
  decide (i.payload.length ≤ 255)

end Sys2Proof
end

