-- ==== Sys2Proof/Decode.lean ====
section
/-!
DEFINITION. From the bytes of the command port to a command, total on any bytes (spec/30_encoding.md
R60 to R68), and back.
-/

namespace Sys2Proof

/-- Mode field values (R63): 0 ECB, 1 CBC, 2 CFB, 3 OFB. -/
def Mode.code : Mode → BitVec 2
  | .ecb => 0
  | .cbc => 1
  | .cfb => 2
  | .ofb => 3

/-- The mode a 2-bit field names; no value is reserved (R63). -/
def Mode.ofCode (c : BitVec 2) : Mode :=
  if c = 0 then .ecb else if c = 1 then .cbc else if c = 2 then .cfb else .ofb

/-- Direction field values (R64): 0 ENC, 1 DEC. -/
def Dir.code : Dir → BitVec 1
  | .enc => 0
  | .dec => 1

/-- The direction a 1-bit field names (R64). -/
def Dir.ofCode (c : BitVec 1) : Dir :=
  if c = 0 then .enc else .dec

/-- The START command of a mode and a direction (the eight START rows of the opcode table). -/
def startInstr : Mode → Dir → Instr
  | .ecb, .enc => .startEcbEnc
  | .cbc, .enc => .startCbcEnc
  | .cfb, .enc => .startCfbEnc
  | .ofb, .enc => .startOfbEnc
  | .ecb, .dec => .startEcbDec
  | .cbc, .dec => .startCbcDec
  | .cfb, .dec => .startCfbDec
  | .ofb, .dec => .startOfbDec

/-- `CMD[7:4]` (R61). -/
def cmdOp (cmd : Byte) : BitVec 4 := cmd.extractLsb' 4 4

/-- `CMD[3]`, reserved, must be 0 (R61). -/
def cmdZ (cmd : Byte) : BitVec 1 := cmd.extractLsb' 3 1

/-- `CMD[2]` (R61). -/
def cmdDir (cmd : Byte) : BitVec 1 := cmd.extractLsb' 2 1

/-- `CMD[1:0]` (R61). -/
def cmdMode (cmd : Byte) : BitVec 2 := cmd.extractLsb' 0 2

/-- Why a frame is an illegal command, the four clauses of R67. The core records none of them: each
faults with the one code `ERR_ILLCMD` (R185). -/
inductive Illegal where
  /-- `op` is 0 or in 5..F. -/
  | reservedOp
  /-- `CMD[3] = 1`. -/
  | reservedBit
  /-- LDKEY, LDIV or BLOCK with `CMD[2:0]` not 0. -/
  | strayFields
  /-- START with `LEN` not 0. -/
  | startPayload
  deriving DecidableEq, Repr

/-- The command of a whole frame `(CMD, PL)`, or the clause of R67 that makes it illegal. -/
def decodeFrame (cmd : Byte) (pl : List Byte) : Except Illegal Instr :=
  if cmdOp cmd = 0 ∨ 5 ≤ (cmdOp cmd).toNat then .error .reservedOp
  else if cmdZ cmd = 1 then .error .reservedBit
  else if cmdOp cmd = 3 then
    if pl = [] then .ok (startInstr (Mode.ofCode (cmdMode cmd)) (Dir.ofCode (cmdDir cmd)))
    else .error .startPayload
  else if cmdDir cmd ≠ 0 ∨ cmdMode cmd ≠ 0 then .error .strayFields
  else if cmdOp cmd = 1 then .ok (.ldkey pl)
  else if cmdOp cmd = 2 then .ok (.ldiv pl)
  else .ok (.block pl)

/-- The first whole frame at the front of the bytes and what stands behind it: `CMD`, payload, rest.
`none` while fewer than `2 + LEN` bytes have arrived (R60). -/
def splitFrame : List Byte → Option (Byte × List Byte × List Byte)
  | cmd :: len :: tl =>
    if len.toNat ≤ tl.length then some (cmd, tl.take len.toNat, tl.drop len.toNat) else none
  | _ => none

/-- What the decoder makes of the bytes that have arrived. -/
inductive Decoded where
  /-- No whole frame yet: the core waits (R60). -/
  | wait
  /-- An illegal command, with the bytes behind its frame (R67). -/
  | illegal (why : Illegal) (rest : List Byte)
  /-- A command, with the bytes behind its frame. -/
  | instr (i : Instr) (rest : List Byte)
  deriving DecidableEq, Repr

/-- Decoding, total on any bytes (R68). The payload length of LDKEY, LDIV and BLOCK is not looked at
here: a wrong length is a fault of the command (R186 to R188). -/
def decode (bytes : List Byte) : Decoded :=
  match splitFrame bytes with
  | none => .wait
  | some (cmd, pl, rest) =>
    match decodeFrame cmd pl with
    | .error why => .illegal why rest
    | .ok i => .instr i rest

/-- The command byte put together from its fields (R61), the reserved bit 0. -/
def packCmd (op : BitVec 4) (dir : BitVec 1) (mode : BitVec 2) : Byte :=
  op ++ (0 : BitVec 1) ++ dir ++ mode

/-- The command byte of a START (R62). -/
def startCmd (m : Mode) (d : Dir) : Byte := packCmd 3 d.code m.code

/-- The command byte of a command (R62). -/
def cmdByte : Instr → Byte
  | .ldkey _ => packCmd 1 0 0
  | .ldiv _ => packCmd 2 0 0
  | .startEcbEnc => startCmd .ecb .enc
  | .startCbcEnc => startCmd .cbc .enc
  | .startCfbEnc => startCmd .cfb .enc
  | .startOfbEnc => startCmd .ofb .enc
  | .startEcbDec => startCmd .ecb .dec
  | .startCbcDec => startCmd .cbc .dec
  | .startCfbDec => startCmd .cfb .dec
  | .startOfbDec => startCmd .ofb .dec
  | .block _ => packCmd 4 0 0

/-- Any frame, legal or not: command byte, length byte, payload (R60; the notation RAW of R70). -/
def rawFrame (cmd : Byte) (pl : List Byte) : List Byte :=
  cmd :: BitVec.ofNat 8 pl.length :: pl

/-- The frame of a command. -/
def encode (i : Instr) : List Byte :=
  rawFrame (cmdByte i) i.payload

/-- One row of spec/opcode_table.json: the command byte matches when `cmd &&& mask = bits`. -/
structure OpRow where
  bits : Byte
  mask : Byte
  payloadLen : Nat
  outputLen : Nat
  build : List Byte → Instr

/-- The opcode table, row by row in the order of spec/opcode_table.json. -/
def opTable : List OpRow :=
  [ ⟨0x10, 0xFF, 32, 0, .ldkey⟩,
    ⟨0x20, 0xFF, 8, 0, .ldiv⟩,
    ⟨0x30, 0xFF, 0, 0, fun _ => .startEcbEnc⟩,
    ⟨0x31, 0xFF, 0, 0, fun _ => .startCbcEnc⟩,
    ⟨0x32, 0xFF, 0, 0, fun _ => .startCfbEnc⟩,
    ⟨0x33, 0xFF, 0, 0, fun _ => .startOfbEnc⟩ ] ++
  [ ⟨0x34, 0xFF, 0, 0, fun _ => .startEcbDec⟩,
    ⟨0x35, 0xFF, 0, 0, fun _ => .startCbcDec⟩,
    ⟨0x36, 0xFF, 0, 0, fun _ => .startCfbDec⟩,
    ⟨0x37, 0xFF, 0, 0, fun _ => .startOfbDec⟩,
    ⟨0x40, 0xFF, 8, 8, .block⟩ ]

/-- The row whose `match` and `mask` fit a command byte (R68: "find the row with CMD & mask = match"). -/
def findRow (cmd : Byte) : Option OpRow :=
  opTable.find? (fun row => decide (cmd &&& row.mask = row.bits))

/-- The first `n` bytes of an instruction whose bits are `w`, bit 0 the least significant bit of the
first byte. -/
def tableBytes : Nat → Nat → List Byte
  | 0, _ => []
  | n + 1, w => BitVec.ofNat 8 w :: tableBytes n (w / 256)

/-- The one frame that begins with the table word's bytes, every byte above them 0 (at most 257 bytes
in all). -/
def tableFrame (nbits w : Nat) : List Byte :=
  match tableBytes ((nbits + 7) / 8) w ++ List.replicate 257 0 with
  | cmd :: len :: tl => cmd :: len :: tl.take len.toNat
  | _ => []

/-- The command the decoder reads from a word of spec/opcode_table.json; `none` where it refuses. -/
def decodeTableWord (nbits w : Nat) : Option Instr :=
  match decode (tableFrame nbits w) with
  | .instr i _ => some i
  | .illegal _ _ => none
  | .wait => none

end Sys2Proof
end

