-- ==== Sys2Proof/Machine/State.lean ====
section
/-!
DEFINITION. The state of the core (spec/10_state.md), the reasons a step can stop, and the state after
reset (R26).
-/

namespace Sys2Proof.Machine

open Sys2Proof

/-- The key word file `K[0..7]` (R10). -/
structure KeyFile where
  k0 : Word
  k1 : Word
  k2 : Word
  k3 : Word
  k4 : Word
  k5 : Word
  k6 : Word
  k7 : Word
  deriving DecidableEq, Repr

/-- The sequencer phase `PH` (R20). While a BLOCK is running its input block is held, because RETIRE
needs it (R153), so `run` carries it; after RETIRE no record of it is left (R25; log entry 8). -/
inductive Phase where
  | idle
  | run (x : Block)
  | fault
  deriving DecidableEq, Repr

/-- A response frame (R66): its `STATUS` byte and its output bytes. Its `OLEN` is their number. -/
structure Response where
  status : Byte
  out : List Byte
  deriving DecidableEq, Repr

/-- The machine's state: every register of spec/10_state.md, and the command port. -/
structure State where
  /-- `K[0..7]` (R10). -/
  k : KeyFile
  /-- `A`, datapath half (R18). -/
  a : Word
  /-- `B`, datapath half (R18). -/
  b : Word
  /-- `RND`, round counter, 0..32 (R19). -/
  rnd : BitVec 6
  /-- `PH`, sequencer phase (R20). -/
  ph : Phase
  /-- `KV`, key valid (R11). -/
  kv : Bool
  /-- `IVV`, IV valid (R13). -/
  ivv : Bool
  /-- `SV`, stream open (R17). -/
  sv : Bool
  /-- `IV`, configured initialization vector (R12). -/
  iv : Block
  /-- `FB`, feedback register (R14). -/
  fb : Block
  /-- `MODE`, mode of the open stream (R15). -/
  mode : Mode
  /-- `DIR`, direction of the open stream (R16). -/
  dir : Dir
  /-- `ERR`, sticky fault code (R21). -/
  err : Byte
  /-- The command port: frame bytes delivered and not yet accepted, first byte first (R60; the model's
  own field, log entry 3). -/
  rx : List Byte
  /-- The reset input, asserted and not yet taken (R210; the model's own field, log entry 4). -/
  rst : Bool
  /-- The responses produced so far, oldest first (R66; the model's own field, log entry 6). -/
  tx : List Response
  deriving DecidableEq, Repr

/-- Why the model itself stops. The spec's own faults are no stops: they are next states with
`PH = FAULT` (R194). -/
inductive Fault where
  /-- `PH = RUN` with `RND` above 32, raised by a step of the sequencer. The spec says there is no such
  state (R19 "holding a value in 0 .. 32"), and no step reaches one. SAFE: the model stops where the
  spec gives nothing (log entry 10). -/
  | roundCounter
  deriving DecidableEq, Repr

/-- Why an instruction has no meaning in the model. -/
inductive Refusal where
  /-- An arm of `exec` that has no meaning yet. No arm raises it in this model: every command of the
  opcode table has its meaning. SAFE: the model stops. -/
  | notModelled (mnemonic : String)
  deriving DecidableEq, Repr

/-- Eight zero bytes. -/
def zeroBlock : Block := ⟨⟨0, 0, 0, 0⟩, ⟨0, 0, 0, 0⟩⟩

/-- The machine right after reset (R26, R210). `PH`, `ERR`, `KV`, `IVV`, `SV` are the spec's; the
registers R26 calls unspecified (`K`, `IV`, `FB`, `MODE`, `DIR`, `A`, `B`, `RND`) hold the values log
entry 1 names (DESIGN CHOICE, unsafe; no rule can observe them). -/
def State.reset : State where
  k := ⟨0, 0, 0, 0, 0, 0, 0, 0⟩
  a := 0
  b := 0
  rnd := 0
  ph := .idle
  kv := false
  ivv := false
  sv := false
  iv := zeroBlock
  fb := zeroBlock
  mode := .ecb
  dir := .enc
  err := 0
  rx := []
  rst := false
  tx := []

end Sys2Proof.Machine
end

