-- ==== Sys2Proof/Machine/Flags.lean ====
section
/-!
DEFINITION. The validity flags `KV`, `IVV`, `SV` as the commands test them (spec/10_state.md R11, R13,
R17), the fault causes and their codes (spec/60_exceptions.md R185), and the order in which a command
reports them (R193). The core has no arithmetic flags (spec/10_state.md section 4).
-/

namespace Sys2Proof.Machine

open Sys2Proof

/-- The seven causes of a fault, and no other (R185). -/
inductive FaultCause where
  | illCmd
  | keyLen
  | ivLen
  | blkLen
  | noKey
  | noIv
  | noStream
  deriving DecidableEq, Repr

/-- The code a fault records in `ERR` (R185). -/
def faultCode : FaultCause → Byte
  | .illCmd => 0x01
  | .keyLen => 0x02
  | .ivLen => 0x03
  | .blkLen => 0x04
  | .noKey => 0x05
  | .noIv => 0x06
  | .noStream => 0x07

/-- A check of a command: the cause to report when its condition holds. -/
def failIf (cond : Bool) (c : FaultCause) : Option FaultCause := if cond then some c else none

/-- The first check that fails, in the order given (R193); `none` when all pass. -/
def firstFault : List (Option FaultCause) → Option FaultCause
  | [] => none
  | some c :: _ => some c
  | none :: tl => firstFault tl

/-- LDKEY wants exactly 32 payload bytes (R186). -/
def checkKeyLen (pl : List Byte) : Option FaultCause := failIf (pl.length != 32) .keyLen

/-- LDIV wants exactly 8 payload bytes (R187). -/
def checkIvLen (pl : List Byte) : Option FaultCause := failIf (pl.length != 8) .ivLen

/-- BLOCK wants exactly 8 payload bytes (R188). -/
def checkBlkLen (pl : List Byte) : Option FaultCause := failIf (pl.length != 8) .blkLen

/-- START and BLOCK want a key (R190). -/
def checkKey (s : State) : Option FaultCause := failIf (!s.kv) .noKey

/-- START in CBC, CFB or OFB wants an IV; in ECB it wants none (R191). -/
def checkIv (m : Mode) (s : State) : Option FaultCause := failIf (decide (m ≠ .ecb) && !s.ivv) .noIv

/-- BLOCK wants an open stream (R192). -/
def checkStream (s : State) : Option FaultCause := failIf (!s.sv) .noStream

end Sys2Proof.Machine
end

