-- ==== Sys2Proof/Config.lean ====
section
/-!
DEFINITION. What the spec makes a parameter of the model (spec/00_scope.md section 4): the
substitution tables and the byte order of block halves. The values this hardware has are in
Machine/Rom.lean.
-/

namespace Sys2Proof

/-- The byte order in which four bytes of a block become a 32-bit half and back (R4, R45). -/
inductive HalfOrder where
  | big
  | little
  deriving DecidableEq, Repr

/-- The configuration of a core. Every rule is stated for an arbitrary `sbox` (R3); no rule asks that
a table be a permutation (R81). -/
structure Config where
  /-- `SBOX[i][v]`: table `i`, entry `v`. -/
  sbox : Fin 8 → Nibble → Nibble
  /-- `HALF_ORDER`. -/
  halfOrder : HalfOrder

/-- `T_CMD`, how long a frame takes to transfer: left OPEN by the spec, read by no rule (R218, D20;
log entry 16). -/
opaque Config.tCmd : Nat

/-- `T_ROUND`, how long a ROUND micro-operation takes: left OPEN by the spec, read by no rule (R218,
D20; log entry 16). -/
opaque Config.tRound : Nat

end Sys2Proof
end

