-- ==== Sys2Proof/Machine/Operands.lean ====
section
/-!
DEFINITION. How the bytes of the command port become words, halves, nibbles and blocks, and back
(spec/20_memory.md R44 to R47, spec/30_encoding.md R65), and the XOR of blocks
(spec/44_mode_controller.md R143).
-/

namespace Sys2Proof.Machine

open Sys2Proof

/-- `BE32`: the first byte is the most significant. -/
def be32 (h : Half) : Word := h.b0 ++ h.b1 ++ h.b2 ++ h.b3

/-- `LE32`: the first byte is the least significant. -/
def le32 (h : Half) : Word := h.b3 ++ h.b2 ++ h.b1 ++ h.b0

/-- `BE32inv`. -/
def be32inv (w : Word) : Half :=
  ⟨w.extractLsb' 24 8, w.extractLsb' 16 8, w.extractLsb' 8 8, w.extractLsb' 0 8⟩

/-- `LE32inv`. -/
def le32inv (w : Word) : Half :=
  ⟨w.extractLsb' 0 8, w.extractLsb' 8 8, w.extractLsb' 16 8, w.extractLsb' 24 8⟩

/-- `H2W`: half to word in the configured order (R45). -/
def h2w (o : HalfOrder) (h : Half) : Word :=
  match o with
  | .big => be32 h
  | .little => le32 h

/-- `W2H`: word to half in the configured order (R45). -/
def w2h (o : HalfOrder) (w : Word) : Half :=
  match o with
  | .big => be32inv w
  | .little => le32inv w

/-- `nib(v, i)`: bits `4i+3 .. 4i`, nibble 0 the least significant (R46). -/
def nib (v : Word) (i : Fin 8) : Nibble := v.extractLsb' (4 * i.val) 4

/-- Byte `j` of a payload. A command reads only bytes its length check has shown to be there. -/
def plByte (pl : List Byte) (j : Nat) : Byte := pl.getD j 0

/-- The four payload bytes from `j` on. -/
def plHalf (pl : List Byte) (j : Nat) : Half :=
  ⟨plByte pl j, plByte pl (j + 1), plByte pl (j + 2), plByte pl (j + 3)⟩

/-- Key word assembly: `K[j] = BE32(PL[4j .. 4j+3])` (R44, R91), not subject to `HALF_ORDER`. -/
def keyFileOf (pl : List Byte) : KeyFile :=
  ⟨be32 (plHalf pl 0), be32 (plHalf pl 4), be32 (plHalf pl 8), be32 (plHalf pl 12),
   be32 (plHalf pl 16), be32 (plHalf pl 20), be32 (plHalf pl 24), be32 (plHalf pl 28)⟩

/-- The block `PL[0..7]`, bytes kept as bytes (R47, R65). -/
def blockOf (pl : List Byte) : Block := ⟨plHalf pl 0, plHalf pl 4⟩

/-- The bytes of a half, first byte first. -/
def halfBytes (h : Half) : List Byte := [h.b0, h.b1, h.b2, h.b3]

/-- The bytes of a block, `X[0]` first (R47). -/
def blockBytes (x : Block) : List Byte := halfBytes x.first ++ halfBytes x.last

/-- Byte-wise XOR of two halves. -/
def hxor (p q : Half) : Half := ⟨p.b0 ^^^ q.b0, p.b1 ^^^ q.b1, p.b2 ^^^ q.b2, p.b3 ^^^ q.b3⟩

/-- `BXor`: byte-wise XOR of two blocks (R143). -/
def bxor (p q : Block) : Block := ⟨hxor p.first q.first, hxor p.last q.last⟩

end Sys2Proof.Machine
end

