-- ==== Sys2Proof/Machine/Ops.lean ====
section
/-!
DEFINITION. The named operations over the state: the key file and the other registers, the response,
taking a fault (spec/60_exceptions.md R194, R195) and the reset that alone leaves it
(spec/70_reset_and_hazards.md R210).
-/

namespace Sys2Proof.Machine

open Sys2Proof

/-- Word `j` of a key file. -/
def keyWord (k : KeyFile) (j : Fin 8) : Word :=
  match j with
  | 0 => k.k0
  | 1 => k.k1
  | 2 => k.k2
  | 3 => k.k3
  | 4 => k.k4
  | 5 => k.k5
  | 6 => k.k6
  | 7 => k.k7

/-- `KeyRead(j)` (R55): no side effect. The commands that reach it have checked `KV` first. -/
def keyRead (s : State) (j : Fin 8) : Word := keyWord s.k j

/-- `respond(status, out)`: one response frame is produced (R66). -/
def State.respond (s : State) (status : Byte) (out : List Byte) : State :=
  { s with tx := s.tx ++ [⟨status, out⟩] }

/-- The bytes of a response frame: `STATUS`, `OLEN`, `OUT` (R66). -/
def responseBytes (r : Response) : List Byte :=
  r.status :: BitVec.ofNat 8 r.out.length :: r.out

/-- Fault entry, `raise Fault(code)` (R194): `ERR`, `PH` and the response, nothing else. -/
def State.faultEntry (s : State) (c : FaultCause) : State :=
  { s with err := faultCode c, ph := .fault }.respond (faultCode c) []

/-- What a faulted core does with any frame: it answers with the first code and changes no register
(R195). -/
def State.answerFaulted (s : State) : State := s.respond s.err []

/-- The core has faulted. -/
def State.faulted (s : State) : Bool := decide (s.ph = .fault)

/-- A command: a faulted core answers it with the first code (R195); otherwise the first check that
fails is taken as a fault (R193, R194); otherwise the command has its effect. -/
def runCommand (checks : List (Option FaultCause)) (effect : State → State) (s : State) : State :=
  if s.faulted then s.answerFaulted
  else
    match firstFault checks with
    | some c => s.faultEntry c
    | none => effect s

/-- An illegal frame (R67, R189). -/
def illegalFrame (s : State) : State := runCommand [some .illCmd] (fun t => t) s

/-- Writing the key file begins a new cipher lifetime: `KV` is set, `IVV` and `SV` are cleared (R90,
R98). -/
def State.setKey (s : State) (k : KeyFile) : State :=
  { s with k := k, kv := true, ivv := false, sv := false }

/-- Writing the configured IV (R140). -/
def State.setIv (s : State) (x : Block) : State := { s with iv := x, ivv := true }

/-- Opening a stream: `FB` is seeded from `IV` when one is loaded, `MODE` and `DIR` are latched (R141). -/
def State.openStream (s : State) (m : Mode) (d : Dir) : State :=
  { s with fb := if s.ivv then s.iv else s.fb, mode := m, dir := d, sv := true }

/-- Writing the datapath registers. -/
def State.setEngine (s : State) (a b : Word) (n : BitVec 6) : State := { s with a := a, b := b, rnd := n }

/-- Writing the feedback register. -/
def State.setFb (s : State) (x : Block) : State := { s with fb := x }

/-- Writing the sequencer phase. -/
def State.setPh (s : State) (p : Phase) : State := { s with ph := p }

/-- Taking a frame off the port: the bytes behind it stay. -/
def State.withRx (s : State) (bytes : List Byte) : State := { s with rx := bytes }

/-- The whole frames at the front of the port's bytes, without the partial frame behind them; `fuel`
bounds the number of frames. -/
def wholeFrames : Nat → List Byte → List Byte
  | 0, _ => []
  | fuel + 1, bytes =>
    match splitFrame bytes with
    | none => []
    | some (cmd, pl, rest) => rawFrame cmd pl ++ wholeFrames fuel rest

/-- The reset event (R210, R26), from whatever state: the registers as at `State.reset`, a frame partly
received discarded, a block in progress abandoned with no response. Frames that wait whole stay
waiting (R213; log entry 5), and the responses already given stay given. -/
def State.resetEvent (s : State) : State :=
  { State.reset with rx := wholeFrames s.rx.length s.rx, tx := s.tx }

end Sys2Proof.Machine
end

