-- ==== Sys2Proof/Machine/KeySchedule.lean ====
section
/-!
DEFINITION. The key schedule (spec/41_key_schedule.md): the command LDKEY and the round-key sequencer.
-/

namespace Sys2Proof.Machine

open Sys2Proof

/-- The round-key order of a Feistel invocation, not to be confused with the stream direction `DIR`
(spec/00_scope.md section 5.3). -/
inductive Order where
  | enc
  | dec
  deriving DecidableEq, Repr

/-- LDKEY: load the key (R90, R91, R98). -/
def execLdkey (pl : List Byte) (s : State) : Host.Outcome State Fault Refusal :=
  .next (runCommand [checkKeyLen pl] (fun t => (t.setKey (keyFileOf pl)).respond 0 []) s)

/-- Index of an ascending pass in round `r`: `r mod 8`. -/
def ascending (r : Nat) : Fin 8 := ⟨r % 8, Nat.mod_lt r (by decide)⟩

/-- Index of a descending pass in round `r`: `7 - (r mod 8)`. -/
def descending (r : Nat) : Fin 8 := ⟨7 - r % 8, Nat.lt_of_le_of_lt (Nat.sub_le 7 _) (by decide)⟩

/-- `kidx(order, r)`, `r` in 0..31: three ascending passes and one descending for ENC (R92); one
ascending and three descending for DEC, the ENC sequence read backwards (R93, conflict C1). -/
def kidx (o : Order) (r : Nat) : Fin 8 :=
  match o with
  | .enc => if r < 24 then ascending r else descending r
  | .dec => if r < 8 then ascending r else descending r

/-- `rk(order, r)`, the round key steered to round `r` (R95). -/
def roundKey (k : KeyFile) (o : Order) (r : Nat) : Word := keyWord k (kidx o r)

/-- The order a BLOCK uses: it follows `DIR` in ECB and CBC, and is ENC in CFB and OFB (R96). -/
def keyOrder (m : Mode) (d : Dir) : Order :=
  match m, d with
  | .ecb, .enc => .enc
  | .ecb, .dec => .dec
  | .cbc, .enc => .enc
  | .cbc, .dec => .dec
  | .cfb, _ => .enc
  | .ofb, _ => .enc

/-- The reversed key `KR[i] = K[7 - i]`, a view and not state (R24). -/
def reversedKey (k : KeyFile) : KeyFile := ⟨k.k7, k.k6, k.k5, k.k4, k.k3, k.k2, k.k1, k.k0⟩

/-- The document's two index patterns over the array it is handed (R94): the encryption pattern, and the
decryption pattern `P[7], ..., P[0]` once and then `P[0], ..., P[7]` three times. -/
def docPattern (encryption : Bool) (r : Nat) : Fin 8 :=
  if encryption then (if r < 24 then ascending r else descending r)
  else (if r < 8 then descending r else ascending r)

/-- The source's selector (R97): the key passed is the canonical key when encrypting and the reversed
one when decrypting, and the pattern is chosen by comparing it with the canonical key. The hardware
has no such comparison. -/
def sourceRoundKey (k : KeyFile) (o : Order) (r : Nat) : Word :=
  let passed := match o with
    | .enc => k
    | .dec => reversedKey k
  keyWord passed (docPattern (decide (passed = k)) r)

end Sys2Proof.Machine
end

