-- ==== Sys2Proof/Machine/Rom.lean ====
section
/-!
DEFINITION. The substitution ROM (spec/40_sbox_rom.md, spec/20_memory.md R41 to R43) and the
configuration this hardware has.
-/

namespace Sys2Proof.Machine

open Sys2Proof

/-- The eight rows of R80, row `i` being `SBOX[i][0..F]`. PRESUMED: the spec supplies the values from
general knowledge (D2; log entry 11). -/
def sboxRows : List (List Nat) :=
  [ [0x9, 0x6, 0x3, 0x2, 0x8, 0xB, 0x1, 0x7, 0xA, 0x4, 0xE, 0xF, 0xC, 0x0, 0xD, 0x5],
    [0x3, 0x7, 0xE, 0x9, 0x8, 0xA, 0xF, 0x0, 0x5, 0x2, 0x6, 0xC, 0xB, 0x4, 0xD, 0x1],
    [0xE, 0x4, 0x6, 0x2, 0xB, 0x3, 0xD, 0x8, 0xC, 0xF, 0x5, 0xA, 0x0, 0x7, 0x1, 0x9],
    [0xE, 0x7, 0xA, 0xC, 0xD, 0x1, 0x3, 0x9, 0x0, 0x2, 0xB, 0x4, 0xF, 0x8, 0x5, 0x6],
    [0xB, 0x5, 0x1, 0x9, 0x8, 0xD, 0xF, 0x0, 0xE, 0x4, 0x2, 0x3, 0xC, 0x7, 0xA, 0x6],
    [0x3, 0xA, 0xD, 0xC, 0x1, 0x2, 0x0, 0xB, 0x7, 0x5, 0x9, 0x4, 0x8, 0xF, 0xE, 0x6],
    [0x1, 0xD, 0x2, 0x9, 0x7, 0xA, 0x6, 0x0, 0x8, 0xC, 0x4, 0x5, 0xF, 0x3, 0xB, 0xE],
    [0xB, 0xA, 0xF, 0x5, 0x0, 0xC, 0xE, 0x8, 0x6, 0x2, 0x3, 0x9, 0x1, 0x7, 0xD, 0x4] ]

/-- The spec's value of the parameter `SBOX` (R80). -/
def hwSbox (i : Fin 8) (v : Nibble) : Nibble :=
  BitVec.ofNat 4 ((sboxRows.getD i.val []).getD v.toNat 0)

/-- The configuration the machine runs with: `SBOX` of R80, `HALF_ORDER = big` (R4; log entries 11,
12). -/
def hw : Config := ⟨hwSbox, .big⟩

/-- `RomRead(i, v)`: no side effect, every location valid (R41, R42). -/
def romRead (c : Config) (i : Fin 8) (v : Nibble) : Nibble := c.sbox i v

/-- The linear address of location `(i, v)`, `16*i + v`, table-major (R41). -/
def romAddr (i : Fin 8) (v : Nibble) : BitVec 7 := BitVec.ofNat 7 (16 * i.val + v.toNat)

/-- The table index of a linear address, `addr[6:4]` (R41). -/
def romTable (addr : BitVec 7) : Fin 8 := (addr.extractLsb' 4 3).toFin

/-- The entry index of a linear address, `addr[3:0]` (R41). -/
def romEntry (addr : BitVec 7) : Nibble := addr.extractLsb' 0 4

/-- The ROM read by linear address. -/
def romReadLinear (c : Config) (addr : BitVec 7) : Nibble := romRead c (romTable addr) (romEntry addr)

end Sys2Proof.Machine
end

