-- ==== Sys2Proof/Machine/RoundFunction.lean ====
section
/-!
DEFINITION. The round function `f` (spec/42_round_function.md): modular adder, S-box multiplexer,
reversed reassembly, rotator.
-/

namespace Sys2Proof.Machine

open Sys2Proof

/-- Stage 1 (R105): addition modulo 2^32, the carry out discarded. -/
def adder (half subkey : Word) : Word := half + subkey

/-- Stage 2 (R106, R107): nibble `i` of the sum through table `i`. -/
def substitute (c : Config) (s : Word) (i : Fin 8) : Nibble := romRead c i (nib s i)

/-- Stage 3 (R108): substituted nibble `i` goes to nibble position `7 - i`, so the word reads
`t[0] t[1] ... t[7]` from left to right. -/
def reassemble (t : Fin 8 → Nibble) : Word :=
  t 0 ++ t 1 ++ t 2 ++ t 3 ++ t 4 ++ t 5 ++ t 6 ++ t 7

/-- Stage 4 (R109): rotation left by 11. -/
def rotator (u : Word) : Word := u.rotateLeft 11

/-- The round function `f(half, subkey)` (R110). -/
def roundF (c : Config) (half subkey : Word) : Word :=
  rotator (reassemble (substitute c (adder half subkey)))

end Sys2Proof.Machine
end

