-- ==== Sys2Proof/Machine/Feistel.lean ====
section
/-!
DEFINITION. The Feistel engine (spec/43_feistel_engine.md): the block function, and the load, ROUND and
unload operations of the datapath registers that compute it.
-/

namespace Sys2Proof.Machine

open Sys2Proof

/-- The halves `(A, B)` after the rounds `r, r+1, ..., r+n-1` under round keys `ks` (R121, R122). -/
def feistelRounds (c : Config) (ks : Nat → Word) : Nat → Nat → Word × Word → Word × Word
  | 0, _, ab => ab
  | n + 1, r, (a, b) => feistelRounds c ks n (r + 1) (b ^^^ roundF c a (ks r), a)

/-- The block function under any sequence of 32 round keys: the first four bytes are loaded into `B`
and the last four into `A` (R120), and the output is `A` followed by `B` (R123). -/
def feistelWith (c : Config) (ks : Nat → Word) (x : Block) : Block :=
  let ab := feistelRounds c ks 32 0 (h2w c.halfOrder x.last, h2w c.halfOrder x.first)
  ⟨w2h c.halfOrder ab.1, w2h c.halfOrder ab.2⟩

/-- `Feistel(order, X)` under a key file (R124). -/
def feistel (c : Config) (k : KeyFile) (o : Order) (x : Block) : Block :=
  feistelWith c (roundKey k o) x

/-- Load, the block split (R120). -/
def State.load (c : Config) (x : Block) (s : State) : State :=
  s.setEngine (h2w c.halfOrder x.last) (h2w c.halfOrder x.first) 0

/-- The ROUND micro-operation (R121): `B` takes the `A` from before the round. It is executed only with
`RND` in 0..31 (R122). -/
def State.round (c : Config) (o : Order) (s : State) : State :=
  s.setEngine (s.b ^^^ roundF c s.a (keyRead s (kidx o s.rnd.toNat))) s.a (s.rnd + 1)

/-- `n` ROUND micro-operations in a row (R122). -/
def State.rounds (c : Config) (o : Order) : Nat → State → State
  | 0, s => s
  | n + 1, s => State.rounds c o n (State.round c o s)

/-- Unload, the output assembly (R123). -/
def State.unload (c : Config) (s : State) : Block := ⟨w2h c.halfOrder s.a, w2h c.halfOrder s.b⟩

end Sys2Proof.Machine
end

