-- ==== Sys2Proof/Machine/ModeController.lean ====
section
/-!
DEFINITION. The mode controller (spec/44_mode_controller.md): the commands LDIV, START and BLOCK.
-/

namespace Sys2Proof.Machine

open Sys2Proof

/-- LDIV: load the initialization vector (R140). -/
def execLdiv (pl : List Byte) (s : State) : Host.Outcome State Fault Refusal :=
  .next (runCommand [checkIvLen pl] (fun t => (t.setIv (blockOf pl)).respond 0 []) s)

/-- START: begin a stream operation in a mode and a direction (R141). -/
def startStream (m : Mode) (d : Dir) (s : State) : State :=
  runCommand [checkKey s, checkIv m s] (fun t => (t.openStream m d).respond 0 []) s

/-- START ECB, ENC (R141). -/
def execStartEcbEnc (s : State) : Host.Outcome State Fault Refusal := .next (startStream .ecb .enc s)

/-- START CBC, ENC (R141). -/
def execStartCbcEnc (s : State) : Host.Outcome State Fault Refusal := .next (startStream .cbc .enc s)

/-- START CFB, ENC (R141). -/
def execStartCfbEnc (s : State) : Host.Outcome State Fault Refusal := .next (startStream .cfb .enc s)

/-- START OFB, ENC (R141). -/
def execStartOfbEnc (s : State) : Host.Outcome State Fault Refusal := .next (startStream .ofb .enc s)

/-- START ECB, DEC (R141). -/
def execStartEcbDec (s : State) : Host.Outcome State Fault Refusal := .next (startStream .ecb .dec s)

/-- START CBC, DEC (R141). -/
def execStartCbcDec (s : State) : Host.Outcome State Fault Refusal := .next (startStream .cbc .dec s)

/-- START CFB, DEC (R141). -/
def execStartCfbDec (s : State) : Host.Outcome State Fault Refusal := .next (startStream .cfb .dec s)

/-- START OFB, DEC (R141). -/
def execStartOfbDec (s : State) : Host.Outcome State Fault Refusal := .next (startStream .ofb .dec s)

/-- The Feistel input `FI` of a block `x` (R153). -/
def feistelInput (m : Mode) (d : Dir) (x fb : Block) : Block :=
  match m, d with
  | .ecb, _ => x
  | .cbc, .enc => bxor x fb
  | .cbc, .dec => x
  | .cfb, _ => fb
  | .ofb, _ => fb

/-- The output block `Y` of a block `x` with Feistel output `fo` (R144 to R151, R153). -/
def blockOutput (m : Mode) (d : Dir) (x fo fb : Block) : Block :=
  match m, d with
  | .ecb, _ => fo
  | .cbc, .enc => fo
  | .cbc, .dec => bxor fo fb
  | .cfb, _ => bxor x fo
  | .ofb, _ => bxor x fo

/-- The new `FB` of a block `x` with Feistel output `fo` and output `y` (R144 to R151, R153): `FB` itself
in ECB, which does not write it. -/
def nextFb (m : Mode) (d : Dir) (x fo y fb : Block) : Block :=
  match m, d with
  | .ecb, _ => fb
  | .cbc, .enc => y
  | .cbc, .dec => x
  | .cfb, .enc => y
  | .cfb, .dec => x
  | .ofb, _ => fo

/-- ISSUE, after the checks (R153): load the Feistel input, `PH <- RUN`, the block held. -/
def State.issue (c : Config) (x : Block) (s : State) : State :=
  (State.load c (feistelInput s.mode s.dir x s.fb) s).setPh (.run x)

/-- RETIRE (R153): unload, write `FB`, `PH <- IDLE`, respond with the output block. -/
def State.retire (c : Config) (x : Block) (s : State) : State :=
  let fo := State.unload c s
  let y := blockOutput s.mode s.dir x fo s.fb
  ((s.setFb (nextFb s.mode s.dir x fo y s.fb)).setPh .idle).respond 0 (blockBytes y)

/-- The 32 ROUND micro-operations of the running block, in the order R96 selects (R122, R153). -/
def State.engine (c : Config) (s : State) : State :=
  State.rounds c (keyOrder s.mode s.dir) 32 s

/-- The checks of a BLOCK (R142). -/
def blockChecks (pl : List Byte) (s : State) : List (Option FaultCause) :=
  [checkBlkLen pl, checkKey s, checkStream s]

/-- A BLOCK to completion, as one step: ISSUE, 32 ROUND, RETIRE (R142, R153). -/
def runBlock (c : Config) (pl : List Byte) (s : State) : State :=
  runCommand (blockChecks pl s)
    (fun t => State.retire c (blockOf pl) (State.engine c (State.issue c (blockOf pl) t))) s

/-- A BLOCK up to and with its ISSUE only, for the machine of micro-steps (R153). -/
def issueBlock (c : Config) (pl : List Byte) (s : State) : State :=
  runCommand (blockChecks pl s) (fun t => State.issue c (blockOf pl) t) s

/-- BLOCK: process one block of the open stream (R142). -/
def execBlock (pl : List Byte) (s : State) : Host.Outcome State Fault Refusal :=
  .next (runBlock hw pl s)

/-- One micro-step of a running block (R121, R122, R153): ROUND while `RND < 32`, RETIRE at 32. -/
def runStep (c : Config) (x : Block) (s : State) : Host.Outcome State Fault Refusal :=
  if s.rnd.toNat < 32 then .next (State.round c (keyOrder s.mode s.dir) s)
  else if s.rnd = 32 then .next (State.retire c x s)
  else .fault .roundCounter

end Sys2Proof.Machine
end

