-- ==== Sys2Proof/Machine/Dispatch.lean ====
section
/-!
DEFINITION. The meaning of every command, one arm per constructor.
-/

namespace Sys2Proof.Machine

open Sys2Proof

def exec (i : Instr) (s : State) : Host.Outcome State Fault Refusal :=
  match i with
  | .ldkey pl => Sys2Proof.Machine.execLdkey pl s
  | .ldiv pl => Sys2Proof.Machine.execLdiv pl s
  | .startEcbEnc => Sys2Proof.Machine.execStartEcbEnc s
  | .startCbcEnc => Sys2Proof.Machine.execStartCbcEnc s
  | .startCfbEnc => Sys2Proof.Machine.execStartCfbEnc s
  | .startOfbEnc => Sys2Proof.Machine.execStartOfbEnc s
  | .startEcbDec => Sys2Proof.Machine.execStartEcbDec s
  | .startCbcDec => Sys2Proof.Machine.execStartCbcDec s
  | .startCfbDec => Sys2Proof.Machine.execStartCfbDec s
  | .startOfbDec => Sys2Proof.Machine.execStartOfbDec s
  | .block pl => Sys2Proof.Machine.execBlock pl s

end Sys2Proof.Machine
end

