-- ==== Sys2Proof/Machine/Fetch.lean ====
section
/-!
DEFINITION. Accepting a frame from the command port (spec/30_encoding.md R60, spec/00_scope.md R5), the
hold while a block is running (spec/70_reset_and_hazards.md R213) and the reset input (R210); and
placing a frame where the next step accepts it.
-/

namespace Sys2Proof.Machine

open Sys2Proof

/-- A core that accepts frames (`PH` IDLE, or FAULT: R195 answers every frame): it takes the first whole
frame off the port and runs it by `ex`; while there is none it waits and nothing happens (R60). -/
def acceptFrame (ex : Instr → State → Host.Outcome State Fault Refusal) (s : State) :
    Host.Outcome State Fault Refusal :=
  match decode s.rx with
  | .wait => .next s
  | .illegal _ rest => .next (illegalFrame (s.withRx rest))
  | .instr i rest => ex i (s.withRx rest)

/-- One step of a core that runs commands by `ex`: an asserted reset input is taken before anything else
(R210); a running block makes its next micro-step and no frame is accepted (R213); otherwise a frame
is accepted. -/
def fetchStep (ex : Instr → State → Host.Outcome State Fault Refusal) (s : State) :
    Host.Outcome State Fault Refusal :=
  if s.rst then .next s.resetEvent
  else
    match s.ph with
    | .run x => runStep hw x s
    | .idle => acceptFrame ex s
    | .fault => acceptFrame ex s

/-- The state with exactly this frame waiting at the port of a core that accepts and decodes it: no
reset asserted, `PH = IDLE`, `ERR = 0` (log entry 14). -/
def placeFrame (s : State) (frame : List Byte) : State :=
  { s with rx := frame, rst := false, ph := .idle, err := 0 }

end Sys2Proof.Machine
end

