-- ==== Sys2Proof/Machine/Port.lean ====
section
/-!
DEFINITION. What the host can do to the core between two steps (spec/00_scope.md R5,
spec/30_encoding.md R60, spec/70_reset_and_hazards.md R210).
-/

namespace Sys2Proof.Machine

open Sys2Proof

/-- The host delivers bytes to the command port (R60). -/
def State.deliver (s : State) (bytes : List Byte) : State := { s with rx := s.rx ++ bytes }

/-- The host asserts the reset input (R210). -/
def State.assertReset (s : State) : State := { s with rst := true }

/-- The host delivers a command's frame. -/
def State.send (s : State) (i : Instr) : State := s.deliver (encode i)

end Sys2Proof.Machine
end

