-- ==== Sys2Proof/Machine/Step.lean ====
section
/-!
DEFINITION. One step of the core at the transaction level (spec/00_scope.md R5), and the placing of a
frame for its next step.
-/

namespace Sys2Proof.Machine

open Sys2Proof

/-- One step: a command runs to completion in it (R5). -/
def step (s : State) : Host.Outcome State Fault Refusal := fetchStep exec s

/-- The state whose next step accepts and runs the instruction with these bits (see `tableFrame`). -/
def State.withFetchWord (s : State) (nbits w : Nat) : State := placeFrame s (tableFrame nbits w)

end Sys2Proof.Machine
end

