-- ==== Sys2Proof/Machine/Stream.lean ====
section
/-!
DEFINITION. The host's contract with the core (spec/45_stream_operations.md): how a byte string is cut,
padded and sent as commands, and what comes back. Outside the core: nothing here is its state or
behaviour (R6).
-/

namespace Sys2Proof.Machine

open Sys2Proof

/-- The number of chunks of `n` bytes, `ceil(n / 8)` (R170). -/
def chunkCount (n : Nat) : Nat := (n + 7) / 8

/-- Chunk `i` of a byte string: its bytes `8i` to `8i+7`, as far as they exist (R170). -/
def chunk (d : List Byte) (i : Nat) : List Byte := (d.drop (8 * i)).take 8

/-- A chunk extended to eight bytes by appended zero bytes (R171). -/
def padChunk (ch : List Byte) : List Byte := ch ++ List.replicate (8 - ch.length) 0

/-- The padded chunks of a byte string, in order (R170, R171). -/
def paddedChunks (d : List Byte) : List (List Byte) :=
  (List.range (chunkCount d.length)).map (fun i => padChunk (chunk d i))

/-- `encrypt(mode, D)` or `decrypt(mode, D)` as commands: a START, then one BLOCK per chunk (R172, R173;
the macros ENCRYPT and DECRYPT of R71). -/
def streamCommands (m : Mode) (d : Dir) (bytes : List Byte) : List Instr :=
  startInstr m d :: (paddedChunks bytes).map .block

/-- `new(key)` as a command; `none` for a key that no frame can carry, which the host reports itself
(R175; the macro NEW of R71). -/
def newCommand (key : List Byte) : Option Instr :=
  if key.length ≤ 255 then some (.ldkey key) else none

/-- `set_iv(iv)` as a command (R175; the macro SETIV of R71). -/
def setIvCommand (iv : List Byte) : Option Instr :=
  if iv.length ≤ 255 then some (.ldiv iv) else none

/-- The bytes the host sends for a list of commands, one frame after the other. -/
def framesOf (is : List Instr) : List Byte := is.flatMap encode

/-- The result of a stream operation: the concatenated outputs of its responses (R71, R172). -/
def resultOf (rs : List Response) : List Byte := rs.flatMap (fun r => r.out)

/-- A list of commands executed one after the other, each to completion (R5, R51). -/
def execAll : List Instr → State → Host.Outcome State Fault Refusal
  | [], s => .next s
  | i :: is, s =>
    match exec i s with
    | .next t => execAll is t
    | .fault r => .fault r
    | .refused r => .refused r

end Sys2Proof.Machine
end

