-- ==== Sys2Proof/Machine/Assembler.lean ====
section
/-!
DEFINITION. The command-script notation (spec/30_encoding.md R70, R71), from text to frames. A convention
of the host: the core never sees it. What the notation leaves open is log entry 18.
-/

namespace Sys2Proof.Machine

open Sys2Proof

/-- Space, tab or carriage return. -/
def isBlank (ch : Char) : Bool := ch.toNat == 32 || ch.toNat == 9 || ch.toNat == 13

/-- The double quote. -/
def isQuote (ch : Char) : Bool := ch.toNat == 34

/-- The value of a hex digit, either case. -/
def hexDigit (ch : Char) : Option Nat :=
  let n := ch.toNat
  if 48 ≤ n ∧ n ≤ 57 then some (n - 48)
  else if 65 ≤ n ∧ n ≤ 70 then some (n - 55)
  else if 97 ≤ n ∧ n ≤ 102 then some (n - 87)
  else none

/-- Cuts a line at the `;` that starts a comment; one inside a quoted string starts none. -/
def stripComment (quoted : Bool) : List Char → List Char
  | [] => []
  | ch :: tl =>
    if isQuote ch then ch :: stripComment (!quoted) tl
    else if ch == ';' && !quoted then []
    else ch :: stripComment quoted tl

/-- Where the reader of a byte string is: between bytes, after a first hex digit, or inside quotes. -/
inductive ByteReader where
  | between
  | half (hi : Nat)
  | quoted
  deriving DecidableEq, Repr

/-- A byte string: hex digits, spaces between them allowed, or quoted ASCII. `none` for an odd number of
digits, an open quote or any other character. -/
def readBytes : ByteReader → List Char → Option (List Byte)
  | .between, [] => some []
  | .half _, [] => none
  | .quoted, [] => none
  | .quoted, ch :: tl =>
    if isQuote ch then readBytes .between tl
    else if ch.toNat < 128 then (readBytes .quoted tl).map (BitVec.ofNat 8 ch.toNat :: ·)
    else none
  | .between, ch :: tl =>
    if isBlank ch then readBytes .between tl
    else if isQuote ch then readBytes .quoted tl
    else (hexDigit ch).bind (fun d => readBytes (.half d) tl)
  | .half hi, ch :: tl =>
    if isBlank ch then readBytes (.half hi) tl
    else (hexDigit ch).bind (fun d =>
      (readBytes .between tl).map (BitVec.ofNat 8 (16 * hi + d) :: ·))

/-- The characters without leading and trailing blanks. -/
def trim (cs : List Char) : List Char :=
  (((cs.dropWhile isBlank).reverse).dropWhile isBlank).reverse

/-- The characters before and after the first comma; `none` where there is none. -/
def splitComma : List Char → Option (List Char × List Char)
  | [] => none
  | ch :: tl => if ch == ',' then some ([], tl) else (splitComma tl).map (fun p => (ch :: p.1, p.2))

/-- A mode by its name. -/
def readMode (cs : List Char) : Option Mode :=
  if cs = "ECB".toList then some .ecb
  else if cs = "CBC".toList then some .cbc
  else if cs = "CFB".toList then some .cfb
  else if cs = "OFB".toList then some .ofb
  else none

/-- A direction by its name. -/
def readDir (cs : List Char) : Option Dir :=
  if cs = "ENC".toList then some .enc else if cs = "DEC".toList then some .dec else none

/-- A frame, refused when its payload is longer than 255 bytes (R70). -/
def frameOrRefuse (cmd : Byte) (pl : List Byte) : Option (List (List Byte)) :=
  if pl.length ≤ 255 then some [rawFrame cmd pl] else none

/-- The frames of a stream macro `<mode>, <bytes>` (R71). -/
def streamLine (d : Dir) (args : List Char) : Option (List (List Byte)) :=
  (splitComma args).bind (fun p =>
    (readMode (trim p.1)).bind (fun m =>
      (readBytes .between p.2).map (fun bytes => (streamCommands m d bytes).map encode)))

/-- The frame of `START <mode>, <dir>`. -/
def startLine (args : List Char) : Option (List (List Byte)) :=
  (splitComma args).bind (fun p =>
    (readMode (trim p.1)).bind (fun m =>
      (readDir (trim p.2)).map (fun d => [encode (startInstr m d)])))

/-- The frame of `RAW <cmd byte> <bytes>`. -/
def rawLine (args : List Char) : Option (List (List Byte)) :=
  match readBytes .between args with
  | some (cmd :: pl) => frameOrRefuse cmd pl
  | some [] => none
  | none => none

/-- The frames of one line, its comment taken off: none for an empty line (R70, R71). -/
def assembleLine (line : List Char) : Option (List (List Byte)) :=
  let cs := trim (stripComment false line)
  let name := cs.takeWhile (fun ch => !isBlank ch)
  let args := cs.dropWhile (fun ch => !isBlank ch)
  let bytes := readBytes .between args
  if cs = [] then some []
  else if name = "LDKEY".toList ∨ name = "NEW".toList then bytes.bind (frameOrRefuse (cmdByte (.ldkey [])))
  else if name = "LDIV".toList ∨ name = "SETIV".toList then bytes.bind (frameOrRefuse (cmdByte (.ldiv [])))
  else if name = "BLOCK".toList then bytes.bind (frameOrRefuse (cmdByte (.block [])))
  else if name = "START".toList then startLine args
  else if name = "RAW".toList then rawLine args
  else if name = "ENCRYPT".toList then streamLine .enc args
  else if name = "DECRYPT".toList then streamLine .dec args
  else none

/-- The lines of a text. -/
def splitLines : List Char → List (List Char)
  | [] => [[]]
  | ch :: tl =>
    if ch.toNat = 10 then [] :: splitLines tl
    else
      match splitLines tl with
      | l :: ls => (ch :: l) :: ls
      | [] => [[ch]]

/-- The frames of lines in order; `none` when any line is refused. -/
def assembleLines : List (List Char) → Option (List (List Byte))
  | [] => some []
  | l :: ls =>
    (assembleLine l).bind (fun fs => (assembleLines ls).map (fun gs => fs ++ gs))

/-- The frames of a script (R70: one command per line). -/
def assemble (text : String) : Option (List (List Byte)) := assembleLines (splitLines text.toList)

end Sys2Proof.Machine
end

