-- ==== Sys2Proof/Machine/Micro.lean ====
section
/-!
DEFINITION. The same core at the granularity of micro-steps (spec/44_mode_controller.md R153: "a model
may implement either granularity, the responses are the same"): a BLOCK is ISSUE, then 32 ROUND, then
RETIRE, one a step, and the port is held meanwhile (spec/70_reset_and_hazards.md R213).
-/

namespace Sys2Proof.Machine

open Sys2Proof

/-- A command at the granularity of micro-steps: a BLOCK only issues, the others take one step (R218). -/
def microExec (i : Instr) (s : State) : Host.Outcome State Fault Refusal :=
  match i with
  | .block pl => .next (issueBlock hw pl s)
  | .ldkey pl => exec (.ldkey pl) s
  | .ldiv pl => exec (.ldiv pl) s
  | .startEcbEnc => exec .startEcbEnc s
  | .startCbcEnc => exec .startCbcEnc s
  | .startCfbEnc => exec .startCfbEnc s
  | .startOfbEnc => exec .startOfbEnc s
  | .startEcbDec => exec .startEcbDec s
  | .startCbcDec => exec .startCbcDec s
  | .startCfbDec => exec .startCfbDec s
  | .startOfbDec => exec .startOfbDec s

/-- One micro-step. -/
def microStep (s : State) : Host.Outcome State Fault Refusal := fetchStep microExec s

/-- `n` micro-steps, stopping at the first stop. -/
def microRun : Nat → State → Host.Outcome State Fault Refusal
  | 0, s => .next s
  | n + 1, s =>
    match microStep s with
    | .next t => microRun n t
    | .fault r => .fault r
    | .refused r => .refused r

end Sys2Proof.Machine
end

