-- ==== Sys2Proof/Safety.lean ====
section
/-!
DEFINITION. What holds of every state the core is ever in, and the words of the spec the claims use.
-/

namespace Sys2Proof.Machine

open Sys2Proof

/-- A block is running (`PH = RUN`, R20). -/
def State.running (s : State) : Bool :=
  match s.ph with
  | .run _ => true
  | .idle => false
  | .fault => false

/-- The invariant of the machine. -/
structure State.Inv (s : State) : Prop where
  /-- `PH = FAULT` if and only if `ERR != 0x00` (R21). -/
  fault_iff_err : s.ph = .fault ↔ s.err ≠ 0
  /-- Codes `0x08 .. 0xFF` are never produced (R185). -/
  err_le : s.err.toNat ≤ 7
  /-- `RND` holds a value in 0..32 (R19). -/
  rnd_le : s.rnd.toNat ≤ 32
  /-- `KV = 0` with `SV = 1` cannot occur (R142). -/
  stream_has_key : s.sv = true → s.kv = true
  /-- A stream open in a chaining mode has an IV loaded: its START wanted one, and only LDKEY, which
  closes the stream, and reset clear `IVV` (R13, R191). -/
  chaining_has_iv : s.sv = true → s.mode ≠ .ecb → s.ivv = true
  /-- A running block belongs to an open stream (R142, R153). -/
  run_has_stream : s.running = true → s.sv = true

/-- Two states that differ at most in registers the spec guards (R26): `K` where `KV = 0`, `IV` where
`IVV = 0`, `MODE` and `DIR` where `SV = 0`, `FB` where no chaining stream is open, and `A`, `B`, `RND`
where no block is running. -/
structure Indistinguishable (s t : State) : Prop where
  ph : s.ph = t.ph
  err : s.err = t.err
  kv : s.kv = t.kv
  ivv : s.ivv = t.ivv
  sv : s.sv = t.sv
  rx : s.rx = t.rx
  rst : s.rst = t.rst
  tx : s.tx = t.tx
  key : s.kv = true → s.k = t.k
  iv : s.ivv = true → s.iv = t.iv
  mode : s.sv = true → s.mode = t.mode
  dir : s.sv = true → s.dir = t.dir
  fb : s.sv = true → s.mode ≠ .ecb → s.fb = t.fb
  engine : s.running = true →
    s.a = t.a ∧ s.b = t.b ∧ s.rnd = t.rnd ∧ s.k = t.k ∧ s.mode = t.mode ∧ s.dir = t.dir ∧ s.fb = t.fb

/-- The eight START commands with the mode and the direction each carries (R62 to R64). -/
def startForms : List (Instr × Mode × Dir) :=
  [ (.startEcbEnc, .ecb, .enc), (.startCbcEnc, .cbc, .enc), (.startCfbEnc, .cfb, .enc),
    (.startOfbEnc, .ofb, .enc), (.startEcbDec, .ecb, .dec), (.startCbcDec, .cbc, .dec),
    (.startCfbDec, .cfb, .dec), (.startOfbDec, .ofb, .dec) ]

/-- The row of the document's mode table (spec/44_mode_controller.md section 1, R144 to R151) as output
block and new feedback register, `E` and `D` being `Feistel(ENC, .)` and `Feistel(DEC, .)`. -/
def modeRow (E D : Block → Block) (m : Mode) (d : Dir) (x fb : Block) : Block × Block :=
  match m, d with
  | .ecb, .enc => (E x, fb)
  | .ecb, .dec => (D x, fb)
  | .cbc, .enc => (E (bxor x fb), E (bxor x fb))
  | .cbc, .dec => (bxor (D x) fb, x)
  | .cfb, .enc => (bxor x (E fb), bxor x (E fb))
  | .cfb, .dec => (bxor x (E fb), x)
  | .ofb, .enc => (bxor x (E fb), E fb)
  | .ofb, .dec => (bxor x (E fb), E fb)

/-- The fault code a core that is not faulted reports for a frame, `0x00` for none: the checks (2) to (5)
of R193 in their order, with the codes of R185. -/
def reportedCode (cmd : Byte) (pl : List Byte) (s : State) : Byte :=
  let op := cmd.toNat / 16
  let low := cmd.toNat % 16
  let illegal := op = 0 ∨ 5 ≤ op ∨ 8 ≤ low ∨ (op ≠ 3 ∧ low ≠ 0) ∨ (op = 3 ∧ pl.length ≠ 0)
  if illegal then 0x01
  else if op = 1 ∧ pl.length ≠ 32 then 0x02
  else if op = 2 ∧ pl.length ≠ 8 then 0x03
  else if op = 4 ∧ pl.length ≠ 8 then 0x04
  else if (op = 3 ∨ op = 4) ∧ s.kv = false then 0x05
  else if op = 3 ∧ low % 4 ≠ 0 ∧ s.ivv = false then 0x06
  else if op = 4 ∧ s.sv = false then 0x07
  else 0x00

/-- The state after fault entry with a code, the frame taken off the port (R194). -/
def afterFault (s : State) (rest : List Byte) (code : Byte) : State :=
  { s with rx := rest, err := code, ph := .fault, tx := s.tx ++ [⟨code, []⟩] }

/-- The state after a faulted core has answered a frame (R195). -/
def afterAnswer (s : State) (rest : List Byte) : State :=
  { s with rx := rest, tx := s.tx ++ [⟨s.err, []⟩] }

/-- The state after a BLOCK whose Feistel output was `fo`, with its output block and the new `FB`: `A` and
`B` still hold the Feistel output and `RND` is 32 (R126, R153). -/
def afterBlock (s : State) (fo y fb : Block) : State :=
  { s with
    a := h2w hw.halfOrder fo.first, b := h2w hw.halfOrder fo.last, rnd := 32, fb := fb,
    tx := s.tx ++ [⟨0x00, blockBytes y⟩] }

/-- The core can open a stream in this mode: idle, a key loaded, and an IV too unless the mode is ECB
(R141, R190, R191). -/
structure ReadyFor (m : Mode) (s : State) : Prop where
  idle : s.ph = .idle
  key : s.kv = true
  iv : m ≠ .ecb → s.ivv = true

/-- The core can process a block of a stream open in this mode and direction (R142). -/
structure OpenIn (m : Mode) (d : Dir) (s : State) : Prop where
  idle : s.ph = .idle
  key : s.kv = true
  stream : s.sv = true
  mode : s.mode = m
  dir : s.dir = d

end Sys2Proof.Machine
end

