-- ==== Sys2Proof/Certificates/Slice0/Obligations.lean ====
section
/-!
DEFINITION. The statements for the provers. Each docstring names the rules of spec/ it formalises.
-/

open Sys2Proof Sys2Proof.Machine

/-! ## Encoding -/

/-- O1. Decoding the frame of a command that fits in a frame gives the command back, with every payload
byte, and leaves the bytes behind it (R60, R61, R62, R65). -/
def Obligations.DecodeOfEncode : Prop :=
  ∀ (i : Instr) (rest : List Byte), i.wellFormed = true → decode (encode i ++ rest) = .instr i rest

/-- O2. Bytes that decode to a command are that command's frame followed by the rest: no byte sequence
reads as a command whose frame it is not (R60, R62, R68). -/
def Obligations.DecodedBytesAreItsFrame : Prop :=
  ∀ (bytes : List Byte) (i : Instr) (rest : List Byte),
    decode bytes = .instr i rest → bytes = encode i ++ rest ∧ i.wellFormed = true

/-- O3. R67: an idle core takes a frame as an illegal command, with `ERR_ILLCMD`, exactly when one of the
four clauses of R67 holds, written here over the number the command byte is; and exactly the eleven
listed command bytes are a command under some payload. -/
def Obligations.IllegalCommandsExactly : Prop :=
  (∀ (s : State) (cmd : Byte) (pl rest : List Byte), s.ph = .idle → s.rst = false → s.err = 0 →
    pl.length ≤ 255 → s.rx = rawFrame cmd pl ++ rest →
    (step s = .next (afterFault s rest 0x01) ↔
      (cmd.toNat / 16 = 0 ∨ 5 ≤ cmd.toNat / 16) ∨ cmd.toNat / 8 % 2 = 1 ∨
      ((cmd.toNat / 16 = 1 ∨ cmd.toNat / 16 = 2 ∨ cmd.toNat / 16 = 4) ∧ cmd.toNat % 8 ≠ 0) ∨
      (cmd.toNat / 16 = 3 ∧ pl.length ≠ 0))) ∧
  (∀ cmd : Byte, (∃ pl i, decodeFrame cmd pl = .ok i) ↔
    cmd ∈ ([0x10, 0x20, 0x30, 0x31, 0x32, 0x33, 0x34, 0x35, 0x36, 0x37, 0x40] : List Byte))

/-- O4. The decoder agrees with the machine-readable opcode table (R68): no two rows, taken by their
places in the table, fit one command byte, a byte no row fits is illegal, a fitting row that requires a payload gives its command whatever
the payload, and a fitting row that requires none (a START) refuses a payload. -/
def Obligations.DecoderAgreesWithTable : Prop :=
  opTable.Pairwise (fun r₁ r₂ =>
    ∀ cmd : Byte, ¬(cmd &&& r₁.mask = r₁.bits ∧ cmd &&& r₂.mask = r₂.bits)) ∧
  ∀ (cmd : Byte) (pl : List Byte),
    match findRow cmd with
    | none => ∃ why, decodeFrame cmd pl = .error why
    | some row =>
      if row.payloadLen = 0 ∧ pl ≠ [] then decodeFrame cmd pl = .error .startPayload
      else decodeFrame cmd pl = .ok (row.build pl)

/-- O5. Words written out from the spec's encodings (R60 to R64, R67; vectors V-EN2 to V-EN10). -/
def Obligations.SampleFramesDecode : Prop :=
  decode [0x20, 0x08, 0x61, 0x62, 0x63, 0x64, 0x65, 0x66, 0x67, 0x68] =
    .instr (.ldiv [0x61, 0x62, 0x63, 0x64, 0x65, 0x66, 0x67, 0x68]) [] ∧
  decode [0x35, 0x00] = .instr .startCbcDec [] ∧
  decode [0x33, 0x00, 0x30] = .instr .startOfbEnc [0x30] ∧
  decode [0x40, 0x01, 0x00] = .instr (.block [0x00]) [] ∧
  decode [0x10, 0x00] = .instr (.ldkey []) [] ∧
  decode [0x38, 0x00] = .illegal .reservedBit [] ∧
  decode [0x24, 0x01, 0x00] = .illegal .strayFields [] ∧
  decode [0x30, 0x01, 0x00] = .illegal .startPayload []

/-! ## The step -/

/-- O6. When the bytes at the port of a core that is not running a block, with no reset asserted, decode
to a command, the step is that command's `exec` with its frame taken off the port (R5, R60). -/
def Obligations.StepRunsDecodedCommand : Prop :=
  ∀ (s : State) (i : Instr) (rest : List Byte), s.running = false → s.rst = false →
    decode s.rx = .instr i rest → step s = exec i { s with rx := rest }

/-- O7. A frame that has not wholly arrived is not yet a command: the core waits and nothing happens
(R60). -/
def Obligations.PartialFrameWaits : Prop :=
  ∀ (s : State), s.running = false → s.rst = false →
    (s.rx.length < 2 ∨ ∃ cmd len tl, s.rx = cmd :: len :: tl ∧ tl.length < len.toNat) →
    step s = .next s

/-- O8. Frames delivered one after the other are executed in that order, one a step, each to completion
before the next (R5, R51). -/
def Obligations.DeliveredFramesRunInOrder : Prop :=
  ∀ (is : List Instr) (s : State), (∀ i ∈ is, i.wellFormed = true) → s.running = false →
    s.rst = false → s.rx = [] →
    Host.Core.run Sys2Proof.core is.length (s.deliver (framesOf is)) = execAll is s

/-- O9. Every frame an accepting core takes, legal or not, is answered by one response frame of
`2 + OLEN` bytes whose STATUS is `ERR` and whose OLEN is 8 for a BLOCK that did not fault and 0
otherwise (R66). -/
def Obligations.OneResponsePerFrame : Prop :=
  ∀ (s : State) (cmd : Byte) (pl rest : List Byte), s.Inv → s.running = false → s.rst = false →
    pl.length ≤ 255 → s.rx = rawFrame cmd pl ++ rest →
    ∃ t r, step s = .next t ∧ t.rx = rest ∧ t.tx = s.tx ++ [r] ∧ r.status = t.err ∧
      r.out.length = (if t.err = 0 ∧ cmd = 0x40 then 8 else 0) ∧
      responseBytes r = [t.err, BitVec.ofNat 8 r.out.length] ++ r.out

/-- O10. No step of the core stops: from every state that meets the invariant a step answers a next
state, as does a micro-step (R199, R218). -/
def Obligations.NoStepStops : Prop :=
  ∀ s : State, s.Inv → (∃ t, step s = .next t) ∧ ∃ t, microStep s = .next t

/-! ## Invariants -/

/-- O11. The state after reset meets the invariant, with the phase, the fault code and the flags R26
gives. (The registers R26 calls unspecified hold the model's choice, log entry 1: nothing is said of
them here.) -/
def Obligations.ResetMeetsInvariant : Prop :=
  State.reset.Inv ∧ State.reset.ph = .idle ∧ State.reset.err = 0x00 ∧ State.reset.kv = false ∧
    State.reset.ivv = false ∧ State.reset.sv = false

/-- O12. Every step and every micro-step keeps the invariant (R19, R20, R21, R142, R185). -/
def Obligations.StepKeepsInvariant : Prop :=
  ∀ s t : State, s.Inv → (step s = .next t ∨ microStep s = .next t) → t.Inv

/-- O13. The access matrix (R27, with R10 to R18, R21 and R194), over all commands on a core that is not
running a block: what no command but the named one writes. `K` is written by LDKEY alone; `IV` by LDIV;
`FB` by a START with an IV loaded and by a BLOCK outside ECB; `MODE` and `DIR` by START; `A`, `B`, `RND` by
BLOCK; `KV` is set by LDKEY and never cleared; `IVV` is set by LDIV and cleared by LDKEY; `SV` is set by START
and cleared by LDKEY; `ERR` and `PH` are written by fault entry alone, which a faulted core never takes
again. -/
def Obligations.WhoWritesWhat : Prop :=
  ∀ (i : Instr) (s t : State), s.running = false → exec i s = .next t →
    (t.k ≠ s.k → ∃ pl, i = .ldkey pl ∧ pl.length = 32) ∧
    (t.iv ≠ s.iv → ∃ pl, i = .ldiv pl ∧ pl.length = 8) ∧
    (t.fb ≠ s.fb → (s.ivv = true ∧ ∃ m d, (i, m, d) ∈ startForms) ∨
      ∃ pl, i = .block pl ∧ pl.length = 8 ∧ s.mode ≠ .ecb) ∧
    (t.mode ≠ s.mode ∨ t.dir ≠ s.dir → (i, t.mode, t.dir) ∈ startForms) ∧
    (t.a ≠ s.a ∨ t.b ≠ s.b ∨ t.rnd ≠ s.rnd → ∃ pl, i = .block pl ∧ pl.length = 8) ∧
    (t.kv ≠ s.kv → t.kv = true ∧ ∃ pl, i = .ldkey pl ∧ pl.length = 32) ∧
    (t.ivv ≠ s.ivv → (t.ivv = true ∧ ∃ pl, i = .ldiv pl ∧ pl.length = 8) ∨
      (t.ivv = false ∧ ∃ pl, i = .ldkey pl ∧ pl.length = 32)) ∧
    (t.sv ≠ s.sv → (t.sv = true ∧ ∃ m d, (i, m, d) ∈ startForms) ∨
      (t.sv = false ∧ ∃ pl, i = .ldkey pl ∧ pl.length = 32)) ∧
    (t.err ≠ s.err ∨ t.ph ≠ s.ph → s.ph = .idle ∧ t.err ≠ 0 ∧ t = afterFault s s.rx t.err)

/-! ## LDKEY -/

/-- O14. LDKEY with 32 payload bytes on an idle core completes: key word `j` is bytes `4j .. 4j+3` of the
payload, the first the most significant (R91, R44); `KV` is set, `IVV` and `SV` are cleared (R90, R98),
and nothing else changes but the response. -/
def Obligations.LdkeyLoadsKeyWords : Prop :=
  ∀ (s : State) (pl : List Byte), s.ph = .idle → pl.length = 32 →
    ∃ k : KeyFile,
      exec (.ldkey pl) s = .next { s with
        k := k, kv := true, ivv := false, sv := false, tx := s.tx ++ [⟨0x00, []⟩] } ∧
      ∀ j : Fin 8, (keyWord k j).toNat =
        (pl.getD (4 * j.val) 0).toNat * 2 ^ 24 + (pl.getD (4 * j.val + 1) 0).toNat * 2 ^ 16 +
        (pl.getD (4 * j.val + 2) 0).toNat * 2 ^ 8 + (pl.getD (4 * j.val + 3) 0).toNat

/-- O15. R90 whole, at the port: what a frame with `op = 1` does in each case, in the order of the
pseudocode. -/
def Obligations.LdkeyFrame : Prop :=
  ∀ (s : State) (cmd : Byte) (pl rest : List Byte), s.rst = false → cmd.toNat / 16 = 1 →
    pl.length ≤ 255 → s.rx = rawFrame cmd pl ++ rest →
    (s.ph = .fault → step s = .next (afterAnswer s rest)) ∧
    (s.ph = .idle → cmd.toNat % 16 ≠ 0 → step s = .next (afterFault s rest 0x01)) ∧
    (s.ph = .idle → cmd.toNat % 16 = 0 → pl.length ≠ 32 → step s = .next (afterFault s rest 0x02)) ∧
    (s.ph = .idle → cmd.toNat % 16 = 0 → pl.length = 32 →
      step s = .next { s with
        rx := rest, kv := true, ivv := false, sv := false, tx := s.tx ++ [⟨0x00, []⟩],
        k := ⟨be32 (plHalf pl 0), be32 (plHalf pl 4), be32 (plHalf pl 8), be32 (plHalf pl 12),
              be32 (plHalf pl 16), be32 (plHalf pl 20), be32 (plHalf pl 24), be32 (plHalf pl 28)⟩ })

/-! ## LDIV -/

/-- O16. LDIV with 8 payload bytes on an idle core, with or without a key, completes: `IV[j] = PL[j]`,
`IVV` is set, and nothing else changes but the response (R140, R12). -/
def Obligations.LdivLoadsIv : Prop :=
  ∀ (s : State) (pl : List Byte), s.ph = .idle → pl.length = 8 →
    ∃ x : Block, blockBytes x = pl ∧
      exec (.ldiv pl) s = .next { s with iv := x, ivv := true, tx := s.tx ++ [⟨0x00, []⟩] }

/-- O17. R140 whole, at the port: what a frame with `op = 2` does in each case. -/
def Obligations.LdivFrame : Prop :=
  ∀ (s : State) (cmd : Byte) (pl rest : List Byte), s.rst = false → cmd.toNat / 16 = 2 →
    pl.length ≤ 255 → s.rx = rawFrame cmd pl ++ rest →
    (s.ph = .fault → step s = .next (afterAnswer s rest)) ∧
    (s.ph = .idle → cmd.toNat % 16 ≠ 0 → step s = .next (afterFault s rest 0x01)) ∧
    (s.ph = .idle → cmd.toNat % 16 = 0 → pl.length ≠ 8 → step s = .next (afterFault s rest 0x03)) ∧
    (s.ph = .idle → cmd.toNat % 16 = 0 → ∀ x : Block, pl = blockBytes x →
      step s = .next { s with rx := rest, iv := x, ivv := true, tx := s.tx ++ [⟨0x00, []⟩] })

/-- O18. R156: LDIV between two BLOCKs of a stream writes `IV` and `IVV` only; the block after it gives
the output and the `FB` it would have given without the LDIV, and the next START, whichever of the
eight, seeds `FB` from the new IV. -/
def Obligations.LdivInsideStream : Prop :=
  ∀ (m : Mode) (d : Dir) (s : State) (v x : Block), OpenIn m d s →
    ∃ t y, execAll [.block (blockBytes x)] s = .next t ∧ t.tx = s.tx ++ [⟨0x00, y⟩] ∧
      execAll [.ldiv (blockBytes v), .block (blockBytes x)] s =
        .next { t with iv := v, ivv := true, tx := s.tx ++ [⟨0x00, []⟩, ⟨0x00, y⟩] } ∧
      ∀ p ∈ startForms, ∃ u,
        execAll [.ldiv (blockBytes v), .block (blockBytes x), p.1] s = .next u ∧ u.fb = v

/-! ## START -/

/-- O19. Each of the eight START commands completes on an idle core with a key and, unless its mode is
ECB, an IV: `MODE` and `DIR` are latched, `SV` is set, `FB` takes the stored `IV` when one is loaded and
is left alone otherwise; nothing else changes but the response (R141). The commands are
`startEcbEnc`, `startCbcEnc`, `startCfbEnc`, `startOfbEnc`, `startEcbDec`, `startCbcDec`, `startCfbDec`
and `startOfbDec`. -/
def Obligations.StartOpensStream : Prop :=
  ∀ i m d, (i, m, d) ∈ startForms → ∀ s : State, ReadyFor m s →
    exec i s = .next { s with
      fb := if s.ivv = true then s.iv else s.fb, mode := m, dir := d, sv := true,
      tx := s.tx ++ [⟨0x00, []⟩] }

/-- O20. R141 whole, at the port: what a frame with `op = 3` does in each case. -/
def Obligations.StartFrame : Prop :=
  ∀ (s : State) (cmd : Byte) (pl rest : List Byte), s.rst = false → cmd.toNat / 16 = 3 →
    pl.length ≤ 255 → s.rx = rawFrame cmd pl ++ rest →
    (s.ph = .fault → step s = .next (afterAnswer s rest)) ∧
    (s.ph = .idle → (cmd.toNat / 8 % 2 ≠ 0 ∨ pl.length ≠ 0) → step s = .next (afterFault s rest 0x01)) ∧
    ∀ (m : Mode) (d : Dir), s.ph = .idle → cmd.toNat = 0x30 + 4 * d.code.toNat + m.code.toNat → pl = [] →
      (s.kv = false → step s = .next (afterFault s rest 0x05)) ∧
      (s.kv = true → m ≠ .ecb → s.ivv = false → step s = .next (afterFault s rest 0x06)) ∧
      (s.kv = true → (m = .ecb ∨ s.ivv = true) →
        step s = .next { s with
          rx := rest, fb := if s.ivv = true then s.iv else s.fb, mode := m, dir := d, sv := true,
          tx := s.tx ++ [⟨0x00, []⟩] })

/-- O21. R155: a START discards whatever an earlier stream left. From any two states with the same key
and the same loaded IV, in which a stream may be open in any mode with any `FB`, the same START and the
same blocks give the same responses. -/
def Obligations.StartReseeds : Prop :=
  ∀ i m d, (i, m, d) ∈ startForms → ∀ (s s' : State) (xs : List Block),
    ReadyFor m s → ReadyFor m s' → s.k = s'.k → s.ivv = true → s'.ivv = true → s.iv = s'.iv →
    ∃ t t' rs, execAll (i :: xs.map (fun x => .block (blockBytes x))) s = .next t ∧
      execAll (i :: xs.map (fun x => .block (blockBytes x))) s' = .next t' ∧
      t.tx = s.tx ++ rs ∧ t'.tx = s'.tx ++ rs ∧ rs.length = xs.length + 1 ∧ t.fb = t'.fb

/-! ## BLOCK -/

/-- O22. BLOCK in mode ECB completes on every block: `Y = Feistel(ENC, X)` or `Feistel(DEC, X)`, `FB` is
not written, and only the datapath registers change beside the response (R144, R145). -/
def Obligations.BlockEcb : Prop :=
  ∀ (s : State) (x : Block),
    (OpenIn .ecb .enc s → exec (.block (blockBytes x)) s =
      .next (afterBlock s (feistel hw s.k .enc x) (feistel hw s.k .enc x) s.fb)) ∧
    (OpenIn .ecb .dec s → exec (.block (blockBytes x)) s =
      .next (afterBlock s (feistel hw s.k .dec x) (feistel hw s.k .dec x) s.fb))

/-- O23. BLOCK in mode CBC completes on every block (R146, R147): encrypting, `Y = Feistel(ENC, X xor FB)`
and `FB <- Y`; decrypting, `Y = Feistel(DEC, X) xor FB` and `FB <- X`. -/
def Obligations.BlockCbc : Prop :=
  ∀ (s : State) (x : Block),
    (OpenIn .cbc .enc s → exec (.block (blockBytes x)) s =
      .next (afterBlock s (feistel hw s.k .enc (bxor x s.fb)) (feistel hw s.k .enc (bxor x s.fb))
        (feistel hw s.k .enc (bxor x s.fb)))) ∧
    (OpenIn .cbc .dec s → exec (.block (blockBytes x)) s =
      .next (afterBlock s (feistel hw s.k .dec x) (bxor (feistel hw s.k .dec x) s.fb) x))

/-- O24. BLOCK in mode CFB completes on every block (R148, R149): `Y = X xor Feistel(ENC, FB)` in both
directions, and `FB` takes the ciphertext block, `Y` encrypting and `X` decrypting. -/
def Obligations.BlockCfb : Prop :=
  ∀ (s : State) (x : Block),
    (OpenIn .cfb .enc s → exec (.block (blockBytes x)) s =
      .next (afterBlock s (feistel hw s.k .enc s.fb) (bxor x (feistel hw s.k .enc s.fb))
        (bxor x (feistel hw s.k .enc s.fb)))) ∧
    (OpenIn .cfb .dec s → exec (.block (blockBytes x)) s =
      .next (afterBlock s (feistel hw s.k .enc s.fb) (bxor x (feistel hw s.k .enc s.fb)) x))

/-- O25. BLOCK in mode OFB completes on every block, the same in both directions (R150, R151):
`FB <- Feistel(ENC, FB)`, and `Y = X xor` the new `FB`. -/
def Obligations.BlockOfb : Prop :=
  ∀ (d : Dir) (s : State) (x : Block), OpenIn .ofb d s → exec (.block (blockBytes x)) s =
    .next (afterBlock s (feistel hw s.k .enc s.fb) (bxor x (feistel hw s.k .enc s.fb))
      (feistel hw s.k .enc s.fb))

/-- O26. R142 whole, at the port: what a frame with `op = 4` does in each case, the effect being the row
of the document's mode table for the latched `MODE` and `DIR`. -/
def Obligations.BlockFrame : Prop :=
  ∀ (s : State) (cmd : Byte) (pl rest : List Byte), s.rst = false → cmd.toNat / 16 = 4 →
    pl.length ≤ 255 → s.rx = rawFrame cmd pl ++ rest →
    (s.ph = .fault → step s = .next (afterAnswer s rest)) ∧
    (s.ph = .idle → cmd.toNat % 16 ≠ 0 → step s = .next (afterFault s rest 0x01)) ∧
    (s.ph = .idle → cmd.toNat % 16 = 0 → pl.length ≠ 8 → step s = .next (afterFault s rest 0x04)) ∧
    (s.ph = .idle → cmd.toNat % 16 = 0 → pl.length = 8 → s.kv = false →
      step s = .next (afterFault s rest 0x05)) ∧
    (s.ph = .idle → cmd.toNat % 16 = 0 → pl.length = 8 → s.kv = true → s.sv = false →
      step s = .next (afterFault s rest 0x07)) ∧
    (s.ph = .idle → cmd.toNat % 16 = 0 → s.kv = true → s.sv = true → ∀ x : Block, pl = blockBytes x →
      ∃ a b, step s = .next { s with
        rx := rest, a := a, b := b, rnd := 32,
        fb := (modeRow (feistel hw s.k .enc) (feistel hw s.k .dec) s.mode s.dir x s.fb).2,
        tx := s.tx ++ [⟨0x00, blockBytes
          (modeRow (feistel hw s.k .enc) (feistel hw s.k .dec) s.mode s.dir x s.fb).1⟩] })

/-! ## Faults and reset -/

/-- O27. R193, with the codes of R185: a faulted core refuses the frame, which is no new fault; the code an
idle core reports for any frame is that of the first check, in the order of R193, whose condition holds,
and the core is then faulted if and only if there is one. -/
def Obligations.FirstFailingCheckIsReported : Prop :=
  ∀ (s : State) (cmd : Byte) (pl rest : List Byte), s.rst = false → pl.length ≤ 255 →
    s.rx = rawFrame cmd pl ++ rest →
    (s.ph = .fault → step s = .next (afterAnswer s rest)) ∧
    (s.ph = .idle → s.err = 0 → ∃ t, step s = .next t ∧ t.err = reportedCode cmd pl s ∧
      (t.ph = .fault ↔ reportedCode cmd pl s ≠ 0))

/-- O28. R194: a fault is precise. When the step of an idle core with a frame at its port leaves it
faulted, that frame is off the port, `ERR`, `PH` and the response are written, and no key, IV, feedback,
mode, direction, flag or datapath register. With no whole frame at the port there is no fault. -/
def Obligations.FaultEntryWritesNothingElse : Prop :=
  ∀ s t : State, s.ph = .idle → step s = .next t →
    (∀ (cmd : Byte) (pl rest : List Byte), pl.length ≤ 255 → s.rx = rawFrame cmd pl ++ rest →
      t.ph = .fault → t = afterFault s rest t.err ∧ t.err ≠ 0) ∧
    (splitFrame s.rx = none → t.ph = .idle)

/-- O29. R195: while `PH = FAULT` every frame, legal or not, is answered with the code of the first fault
and no output, and changes no register; the same holds of every command's `exec`. -/
def Obligations.FaultedCoreAnswersFirstCode : Prop :=
  (∀ (s : State) (cmd : Byte) (pl rest : List Byte), s.ph = .fault → s.rst = false →
    pl.length ≤ 255 → s.rx = rawFrame cmd pl ++ rest → step s = .next (afterAnswer s rest)) ∧
  (∀ (s : State) (i : Instr), s.ph = .fault → exec i s = .next (afterAnswer s s.rx))

/-- O30. R196 along every run: with no reset asserted a faulted core stays faulted with the same code,
and changes no register, for any number of steps on any bytes; every response is that code and no
output. Reset, and only it, leaves the phase. -/
def Obligations.FaultIsStickyUntilReset : Prop :=
  (∀ (n : Nat) (s : State), s.ph = .fault → s.rst = false →
    ∃ m rest, Host.Core.run Sys2Proof.core n s =
      .next { s with rx := rest, tx := s.tx ++ List.replicate m ⟨s.err, []⟩ }) ∧
  (∀ s : State, s.ph = .fault → s.rst = true →
    ∃ t, step s = .next t ∧ t.ph = .idle ∧ t.err = 0 ∧ t.kv = false ∧ t.ivv = false ∧ t.sv = false)

/-- O31. The reset event, from whatever state, also a running or a faulted one, at either granularity:
`PH = IDLE`, `ERR = 0x00`, `KV = IVV = SV = 0`, no response, and a frame partly received is discarded
(R210, R26). That the frames waiting whole stay at the port is the model's reading (log entry 5). -/
def Obligations.ResetFromAnyState : Prop :=
  ∀ s : State, s.rst = true → ∃ t, step s = .next t ∧ microStep s = .next t ∧
    t.ph = .idle ∧ t.err = 0x00 ∧ t.kv = false ∧ t.ivv = false ∧ t.sv = false ∧ t.rst = false ∧
    t.tx = s.tx ∧
    ∃ (fs : List (Byte × List Byte)) (tail : List Byte), (∀ f ∈ fs, f.2.length ≤ 255) ∧
      t.rx = fs.flatMap (fun f => rawFrame f.1 f.2) ∧ s.rx = t.rx ++ tail ∧ splitFrame tail = none

/-- O32. No rule observes an unspecified register (R26): two states that differ only in registers their
guards protect give the same responses for any number of steps, and still differ only there. -/
def Obligations.UnspecifiedRegistersUnobservable : Prop :=
  ∀ (n : Nat) (s t s' : State), Indistinguishable s t → Host.Core.run Sys2Proof.core n s = .next s' →
    ∃ t', Host.Core.run Sys2Proof.core n t = .next t' ∧ Indistinguishable s' t'

/-- O33. Whatever the registers R26 calls unspecified hold after reset, every sequence of bytes the host
sends gets the same responses. In particular nothing observable rests on the values log entry 1
chooses. -/
def Obligations.ResetContentsUnobservable : Prop :=
  ∀ (n : Nat) (bytes : List Byte) (k : KeyFile) (a b : Word) (rnd : BitVec 6) (iv fb : Block)
    (m : Mode) (d : Dir), ∃ t t',
    Host.Core.run Sys2Proof.core n (State.reset.deliver bytes) = .next t ∧
    Host.Core.run Sys2Proof.core n (State.deliver { State.reset with
      k := k, a := a, b := b, rnd := rnd, iv := iv, fb := fb, mode := m, dir := d } bytes) = .next t' ∧
    t.tx = t'.tx

/-! ## The datapath -/

/-- O34. Block halves and words, for either `HALF_ORDER` (R45): the two conversions undo each other, and
the word is the number the order says. The last clause, that the configuration `hw` has the order `big`,
is a choice (R4, D3: the source gives none; log entry 12). -/
def Obligations.HalfWordConversion : Prop :=
  (∀ (o : HalfOrder) (h : Half) (w : Word), w2h o (h2w o h) = h ∧ h2w o (w2h o w) = w) ∧
  (∀ h : Half, (h2w .big h).toNat =
    h.b0.toNat * 2 ^ 24 + h.b1.toNat * 2 ^ 16 + h.b2.toNat * 2 ^ 8 + h.b3.toNat) ∧
  (∀ h : Half, (h2w .little h).toNat =
    h.b3.toNat * 2 ^ 24 + h.b2.toNat * 2 ^ 16 + h.b1.toNat * 2 ^ 8 + h.b0.toNat) ∧
  hw.halfOrder = .big

/-- O35. The substitution ROM by linear address (R41, R42): address `16*i + v` reads `SBOX[i][v]`. -/
def Obligations.RomLinearRead : Prop :=
  ∀ (c : Config) (i : Fin 8) (v : Nibble),
    (romAddr i v).toNat = 16 * i.val + v.toNat ∧ romReadLinear c (romAddr i v) = c.sbox i v

/-- O36. Stage 3 of the round function (R108): the reassembled word is the sum of `t[i] * 2^(4*(7-i))`,
and its nibble `7 - i` is `t[i]`. -/
def Obligations.ReassemblyReversesNibbles : Prop :=
  ∀ t : Fin 8 → Nibble,
    (reassemble t).toNat = (t 0).toNat * 2 ^ 28 + (t 1).toNat * 2 ^ 24 + (t 2).toNat * 2 ^ 20 +
      (t 3).toNat * 2 ^ 16 + (t 4).toNat * 2 ^ 12 + (t 5).toNat * 2 ^ 8 + (t 6).toNat * 2 ^ 4 +
      (t 7).toNat ∧
    ∀ i : Fin 8, nib (reassemble t) i.rev = t i

/-- O37. Stage 4 of the round function (R109): bit `j` of `u` becomes bit `(j + 11) mod 32`. -/
def Obligations.RotatorMovesBits : Prop :=
  ∀ (u : Word) (j : Nat), j < 32 → (rotator u).getLsbD ((j + 11) % 32) = u.getLsbD j

/-- O38. The round function, for every `SBOX` (R105 to R110): the nibble that stage 4 took from position
`7 - i` is table `i` at nibble `i` of `(half + subkey) mod 2^32`; so `f` depends on its two inputs only
through their sum. -/
def Obligations.RoundFunctionByNibbles : Prop :=
  ∀ (c : Config) (half subkey : Word),
    (∀ i : Fin 8, nib ((roundF c half subkey).rotateRight 11) i.rev =
      c.sbox i (BitVec.ofNat 4 ((half.toNat + subkey.toNat) % 2 ^ 32 / 16 ^ i.val))) ∧
    ∀ half' subkey' : Word, (half.toNat + subkey.toNat) % 2 ^ 32 = (half'.toNat + subkey'.toNat) % 2 ^ 32 →
      roundF c half subkey = roundF c half' subkey'

/-- O39. The round keys (R92 to R95, R97): in every round the key steered by order is the one the
source's selector reaches by comparing arrays, the DEC sequence is the ENC sequence read backwards, and
for a word-palindromic key the two are the same. -/
def Obligations.RoundKeySelection : Prop :=
  ∀ (k : KeyFile) (r : Nat), r < 32 →
    (∀ o : Order, roundKey k o r = sourceRoundKey k o r) ∧
    roundKey k .dec r = roundKey k .enc (31 - r) ∧
    ((∀ j : Fin 8, keyWord k j = keyWord k j.rev) → roundKey k .enc r = roundKey k .dec r)

/-- O40. The engine (R120, R122 to R124), with a key loaded, since R55 defines the key read for `KV = 1`
only: a load followed by `n` ROUNDs leaves `RND = n`, and after exactly
32 of them the unloaded block is `Feistel(order, X)` under the key file, whatever `A`, `B`, `RND` held
before; no other register changes. -/
def Obligations.EngineComputesFeistel : Prop :=
  ∀ (c : Config) (o : Order) (x : Block) (s : State), s.kv = true →
    (∀ n ≤ 32, (State.rounds c o n (State.load c x s)).rnd.toNat = n) ∧
    State.unload c (State.rounds c o 32 (State.load c x s)) = feistel c s.k o x ∧
    ∃ a b, State.rounds c o 32 (State.load c x s) = { s with a := a, b := b, rnd := 32 }

/-- O41. R125: the inverse property, for every `SBOX`, every `HALF_ORDER`, every key and every block. -/
def Obligations.FeistelInverse : Prop :=
  ∀ (c : Config) (k : KeyFile) (x : Block),
    feistel c k .dec (feistel c k .enc x) = x ∧ feistel c k .enc (feistel c k .dec x) = x

/-- O42. R127: `Feistel(order, .)` is a bijection on blocks, and `Feistel(other order, .)` is its inverse. -/
def Obligations.FeistelBijective : Prop :=
  ∀ (c : Config) (k : KeyFile) (o o' : Order), o ≠ o' → Function.Bijective (feistel c k o) ∧
    Function.LeftInverse (feistel c k o') (feistel c k o) ∧
    Function.RightInverse (feistel c k o') (feistel c k o)

/-- O43. The laws of block XOR (R143), byte by byte. -/
def Obligations.BlockXorLaws : Prop :=
  ∀ p q : Block, bxor p q = bxor q p ∧ bxor (bxor p q) q = p ∧ bxor p zeroBlock = p ∧
    blockBytes (bxor p q) = List.zipWith (· ^^^ ·) (blockBytes p) (blockBytes q)

/-! ## Micro-steps -/

/-- O44. R153: a BLOCK whose checks pass runs, at the granularity of micro-steps, as ISSUE, 32 ROUND and
RETIRE. After each of the first 33 micro-steps the block is running, the frames behind it wait untouched
and nothing has been answered and `FB` is as before; after the 34th the state is the one the single
step gives. -/
def Obligations.MicroStepsMakeOneStep : Prop :=
  ∀ (m : Mode) (d : Dir) (s : State) (x : Block) (rest : List Byte), OpenIn m d s → s.rst = false →
    s.rx = encode (.block (blockBytes x)) ++ rest →
    (∀ n, 1 ≤ n → n ≤ 33 → ∃ t, microRun n s = .next t ∧ t.ph = .run x ∧ t.rnd.toNat = n - 1 ∧
      t.rx = rest ∧ t.tx = s.tx ∧ t.fb = s.fb) ∧
    microRun 34 s = step s

/-- O45. R213: while a block is running the port accepts no frame, whatever waits there, and the hold is
lifted by RETIRE after at most 33 micro-steps, the waiting bytes still there. That `step` too, applied to
a running core, makes one micro-step is the model's choice (log entry 7: R213 says the hold is invisible
at that level), and so is that a running core with `KV = 0`, which no run reaches, goes on (log entry 21). -/
def Obligations.HoldLiftsAtRetire : Prop :=
  ∀ (s : State) (x : Block), s.ph = .run x → s.rst = false → s.rnd.toNat ≤ 32 →
    (∃ t, microStep s = .next t ∧ step s = .next t ∧ t.rx = s.rx) ∧
    ∃ t, microRun (33 - s.rnd.toNat) s = .next t ∧ t.ph = .idle ∧ t.rx = s.rx ∧
      t.tx.length = s.tx.length + 1

/-! ## Streams -/

/-- O46. R158: the round trip, in each of the four modes and for any number of blocks. What an ENC stream
answers, given to a DEC stream under the same key and IV, is answered with the blocks of the first. -/
def Obligations.RoundTripEveryMode : Prop :=
  ∀ (m : Mode) (s s' : State) (ps : List Block), ReadyFor m s → ReadyFor m s' → s.k = s'.k →
    (m ≠ .ecb → s.iv = s'.iv) →
    ∃ (cs : List Block) (t t' : State), cs.length = ps.length ∧
      execAll (startInstr m .enc :: ps.map (fun x => .block (blockBytes x))) s = .next t ∧
      t.tx = s.tx ++ ⟨0x00, []⟩ :: cs.map (fun y => ⟨0x00, blockBytes y⟩) ∧
      execAll (startInstr m .dec :: cs.map (fun y => .block (blockBytes y))) s' = .next t' ∧
      t'.tx = s'.tx ++ ⟨0x00, []⟩ :: ps.map (fun x => ⟨0x00, blockBytes x⟩)

/-- O47. R154: an ECB stream ignores the IV entirely. Its responses do not change with `IV`, with whether
one was ever loaded, or with what `FB` held; and equal blocks get equal responses. -/
def Obligations.EcbIgnoresIv : Prop :=
  ∀ (d : Dir) (s : State) (v w : Block) (loaded : Bool) (xs : List Block), s.ph = .idle → s.kv = true →
    ∃ t t' ys,
      execAll (startInstr .ecb d :: xs.map (fun x => .block (blockBytes x))) s = .next t ∧
      execAll (startInstr .ecb d :: xs.map (fun x => .block (blockBytes x)))
        { s with iv := v, ivv := loaded, fb := w } = .next t' ∧
      t.tx = s.tx ++ ⟨0x00, []⟩ :: ys ∧ t'.tx = t.tx ∧
      ∃ g : Block → Response, ys = xs.map g

/-- O48. R159: two streams of one chaining mode and direction whose feedback registers differ give
different outputs for the same block; so two IVs that differ in any bit give different first outputs. -/
def Obligations.FeedbackSensitivity : Prop :=
  ∀ (m : Mode) (d : Dir) (s : State) (v w x : Block), m ≠ .ecb → v ≠ w → s.ph = .idle → s.kv = true →
    (OpenIn m d s → ∃ t t' y y',
      exec (.block (blockBytes x)) { s with fb := v } = .next t ∧ t.tx = s.tx ++ [⟨0x00, y⟩] ∧
      exec (.block (blockBytes x)) { s with fb := w } = .next t' ∧ t'.tx = s.tx ++ [⟨0x00, y'⟩] ∧
      y ≠ y') ∧
    ∃ t t' y y',
      execAll [.ldiv (blockBytes v), startInstr m d, .block (blockBytes x)] s = .next t ∧
      t.tx = s.tx ++ [⟨0x00, []⟩, ⟨0x00, []⟩, ⟨0x00, y⟩] ∧
      execAll [.ldiv (blockBytes w), startInstr m d, .block (blockBytes x)] s = .next t' ∧
      t'.tx = s.tx ++ [⟨0x00, []⟩, ⟨0x00, []⟩, ⟨0x00, y'⟩] ∧ y ≠ y'

/-- O49. R160: CFB and OFB give the same first block, the block XOR `Feistel(ENC, IV)`; their second
blocks are the block XOR `Feistel(ENC, C1)` and `Feistel(ENC, Feistel(ENC, IV))`, and agree exactly when
the first block is all zeros. -/
def Obligations.CfbOfbFirstBlock : Prop :=
  ∀ (s : State) (p₁ p₂ : Block), s.ph = .idle → s.kv = true → s.ivv = true →
    ∃ (t t' : State) (c₁ c₂ o₂ : Block),
      execAll [.startCfbEnc, .block (blockBytes p₁), .block (blockBytes p₂)] s = .next t ∧
      t.tx = s.tx ++ [⟨0x00, []⟩, ⟨0x00, blockBytes c₁⟩, ⟨0x00, blockBytes c₂⟩] ∧
      execAll [.startOfbEnc, .block (blockBytes p₁), .block (blockBytes p₂)] s = .next t' ∧
      t'.tx = s.tx ++ [⟨0x00, []⟩, ⟨0x00, blockBytes c₁⟩, ⟨0x00, blockBytes o₂⟩] ∧
      c₁ = bxor p₁ (feistel hw s.k .enc s.iv) ∧ c₂ = bxor p₂ (feistel hw s.k .enc c₁) ∧
      o₂ = bxor p₂ (feistel hw s.k .enc (feistel hw s.k .enc s.iv)) ∧
      (c₂ = o₂ ↔ p₁ = zeroBlock)

/-- O50. In OFB the register evolves independently of the data and of the direction (R150, R151): after a
stream of `n` blocks `FB` is the `n`-fold iterate of `Feistel(ENC, .)` on the IV. -/
def Obligations.OfbRegisterIterates : Prop :=
  ∀ (d : Dir) (s : State) (xs : List Block), ReadyFor .ofb s →
    ∃ t, execAll (startInstr .ofb d :: xs.map (fun x => .block (blockBytes x))) s = .next t ∧
      t.fb = (feistel hw s.k .enc)^[xs.length] s.iv

/-- O51. Chunking and padding (R170, R171): `ceil(n / 8)` chunks of exactly eight bytes, which together
are the string followed by fewer than eight zero bytes. -/
def Obligations.ChunksArePaddedString : Prop :=
  ∀ d : List Byte,
    (paddedChunks d).length = (d.length + 7) / 8 ∧ (∀ ch ∈ paddedChunks d, ch.length = 8) ∧
    (paddedChunks d).flatten = d ++ List.replicate (8 * ((d.length + 7) / 8) - d.length) 0 ∧
    8 * ((d.length + 7) / 8) - d.length < 8

/-- O52. R174: the result of ENCRYPT or DECRYPT of `n` bytes has length `8 * ceil(n / 8)`, with nothing
before or after it; every response of it has status `0x00` (R177). -/
def Obligations.StreamResultLength : Prop :=
  ∀ (m : Mode) (d : Dir) (bytes : List Byte) (s : State), ReadyFor m s →
    ∃ t rs, execAll (streamCommands m d bytes) s = .next t ∧ t.tx = s.tx ++ rs ∧
      (∀ r ∈ rs, r.status = 0x00) ∧ (resultOf rs).length = 8 * ((bytes.length + 7) / 8)

/-- O53. R178: decrypting what encrypting gave returns the bytes followed by the zero bytes of the
padding, in every mode; so the round trip is exact only for a length that is a multiple of 8. -/
def Obligations.PaddingGap : Prop :=
  ∀ (m : Mode) (bytes : List Byte) (s s' : State), ReadyFor m s → ReadyFor m s' → s.k = s'.k →
    (m ≠ .ecb → s.iv = s'.iv) →
    ∃ t t' rs rs', execAll (streamCommands m .enc bytes) s = .next t ∧ t.tx = s.tx ++ rs ∧
      execAll (streamCommands m .dec (resultOf rs)) s' = .next t' ∧ t'.tx = s'.tx ++ rs' ∧
      resultOf rs' = bytes ++ List.replicate (8 * ((bytes.length + 7) / 8) - bytes.length) 0 ∧
      (resultOf rs' = bytes ↔ bytes.length % 8 = 0)

/-- O54. R179: in CFB and OFB, where the block's bytes from `j` on are zero, the output's bytes from `j`
on are the keystream block's. -/
def Obligations.ZeroBytesShowKeystream : Prop :=
  ∀ (m : Mode) (d : Dir) (s : State) (x : Block) (j : Nat), m = .cfb ∨ m = .ofb → OpenIn m d s →
    (blockBytes x).drop j = List.replicate (8 - j) 0 →
    ∃ t y, exec (.block (blockBytes x)) s = .next t ∧ t.tx = s.tx ++ [⟨0x00, y⟩] ∧
      y.drop j = (blockBytes (feistel hw s.k .enc s.fb)).drop j

/-! ## The index sequences -/

/-- O55. R92 and R93: the key word of every round under the two orders, and that one sequence is the other
read backwards. -/
def Obligations.RoundKeyIndices : Prop :=
  ∀ r : Fin 32,
    (kidx .enc r.val).val = (if r.val < 24 then r.val % 8 else 7 - r.val % 8) ∧
    (kidx .dec r.val).val = (if r.val < 8 then r.val % 8 else 7 - r.val % 8) ∧
    kidx .dec r.val = kidx .enc (31 - r.val)

/-! ## The two machines -/

/-- O56. The machine of micro-steps makes the very step of the other machine, except when it issues a
BLOCK (R153, R218): with reset asserted, on a faulted core, on LDKEY, LDIV and START, on an illegal frame,
on a BLOCK that faults, and while it waits. That they agree on a running core is the model's choice: that
`step` makes a micro-step there is log entry 7, what it does with `KV = 0` log entry 21, and that both stop
with `RND` above 32 log entry 10. -/
def Obligations.MicroStepIsStep : Prop :=
  ∀ s : State,
    (s.rst = true ∨ s.ph ≠ .idle ∨ s.kv = false ∨ s.sv = false ∨
      ∀ (x : Block) (rest : List Byte), decode s.rx ≠ .instr (.block (blockBytes x)) rest) →
    microStep s = step s

/-- O57. The two machines agree over runs, which R153 says of their responses ("a model may implement
either granularity"): whatever `n` steps of the one give, some number of micro-steps, at most 34 for each
step, gives: the same state, so the same responses, or the same stop. That this holds from starting states
with `PH = RUN` too is the model's choice and not R153's: that `step` makes a micro-step there is log entry
7, what it does with `KV = 0` log entry 21, and that both stop with `RND` above 32 log entry 10. -/
def Obligations.MicroMachineAgrees : Prop :=
  ∀ (n : Nat) (s : State), ∃ m, n ≤ m ∧ m ≤ 34 * n ∧ microRun m s = Host.Core.run Sys2Proof.core n s
end

