-- ==== Sys2Proof/Laws/State.lean ====
section
/-!
SUPPORT. One lemma per field per update of the state, so that no proof unfolds a record update.
-/

namespace Sys2Proof.Machine

open Sys2Proof

@[simp] theorem State.respond_k (s : State) (st : Byte) (o : List Byte) :
    (s.respond st o).k = s.k := rfl
@[simp] theorem State.respond_a (s : State) (st : Byte) (o : List Byte) :
    (s.respond st o).a = s.a := rfl
@[simp] theorem State.respond_b (s : State) (st : Byte) (o : List Byte) :
    (s.respond st o).b = s.b := rfl
@[simp] theorem State.respond_rnd (s : State) (st : Byte) (o : List Byte) :
    (s.respond st o).rnd = s.rnd := rfl
@[simp] theorem State.respond_ph (s : State) (st : Byte) (o : List Byte) :
    (s.respond st o).ph = s.ph := rfl
@[simp] theorem State.respond_kv (s : State) (st : Byte) (o : List Byte) :
    (s.respond st o).kv = s.kv := rfl
@[simp] theorem State.respond_ivv (s : State) (st : Byte) (o : List Byte) :
    (s.respond st o).ivv = s.ivv := rfl
@[simp] theorem State.respond_sv (s : State) (st : Byte) (o : List Byte) :
    (s.respond st o).sv = s.sv := rfl
@[simp] theorem State.respond_iv (s : State) (st : Byte) (o : List Byte) :
    (s.respond st o).iv = s.iv := rfl
@[simp] theorem State.respond_fb (s : State) (st : Byte) (o : List Byte) :
    (s.respond st o).fb = s.fb := rfl
@[simp] theorem State.respond_mode (s : State) (st : Byte) (o : List Byte) :
    (s.respond st o).mode = s.mode := rfl
@[simp] theorem State.respond_dir (s : State) (st : Byte) (o : List Byte) :
    (s.respond st o).dir = s.dir := rfl
@[simp] theorem State.respond_err (s : State) (st : Byte) (o : List Byte) :
    (s.respond st o).err = s.err := rfl
@[simp] theorem State.respond_rx (s : State) (st : Byte) (o : List Byte) :
    (s.respond st o).rx = s.rx := rfl
@[simp] theorem State.respond_rst (s : State) (st : Byte) (o : List Byte) :
    (s.respond st o).rst = s.rst := rfl
@[simp] theorem State.respond_tx (s : State) (st : Byte) (o : List Byte) :
    (s.respond st o).tx = s.tx ++ [⟨st, o⟩] := rfl

@[simp] theorem State.faultEntry_k (s : State) (c : FaultCause) :
    (s.faultEntry c).k = s.k := rfl
@[simp] theorem State.faultEntry_a (s : State) (c : FaultCause) :
    (s.faultEntry c).a = s.a := rfl
@[simp] theorem State.faultEntry_b (s : State) (c : FaultCause) :
    (s.faultEntry c).b = s.b := rfl
@[simp] theorem State.faultEntry_rnd (s : State) (c : FaultCause) :
    (s.faultEntry c).rnd = s.rnd := rfl
@[simp] theorem State.faultEntry_ph (s : State) (c : FaultCause) :
    (s.faultEntry c).ph = .fault := rfl
@[simp] theorem State.faultEntry_kv (s : State) (c : FaultCause) :
    (s.faultEntry c).kv = s.kv := rfl
@[simp] theorem State.faultEntry_ivv (s : State) (c : FaultCause) :
    (s.faultEntry c).ivv = s.ivv := rfl
@[simp] theorem State.faultEntry_sv (s : State) (c : FaultCause) :
    (s.faultEntry c).sv = s.sv := rfl
@[simp] theorem State.faultEntry_iv (s : State) (c : FaultCause) :
    (s.faultEntry c).iv = s.iv := rfl
@[simp] theorem State.faultEntry_fb (s : State) (c : FaultCause) :
    (s.faultEntry c).fb = s.fb := rfl
@[simp] theorem State.faultEntry_mode (s : State) (c : FaultCause) :
    (s.faultEntry c).mode = s.mode := rfl
@[simp] theorem State.faultEntry_dir (s : State) (c : FaultCause) :
    (s.faultEntry c).dir = s.dir := rfl
@[simp] theorem State.faultEntry_err (s : State) (c : FaultCause) :
    (s.faultEntry c).err = faultCode c := rfl
@[simp] theorem State.faultEntry_rx (s : State) (c : FaultCause) :
    (s.faultEntry c).rx = s.rx := rfl
@[simp] theorem State.faultEntry_rst (s : State) (c : FaultCause) :
    (s.faultEntry c).rst = s.rst := rfl
@[simp] theorem State.faultEntry_tx (s : State) (c : FaultCause) :
    (s.faultEntry c).tx = s.tx ++ [⟨faultCode c, []⟩] := rfl

@[simp] theorem State.answerFaulted_k (s : State) :
    (s.answerFaulted).k = s.k := rfl
@[simp] theorem State.answerFaulted_a (s : State) :
    (s.answerFaulted).a = s.a := rfl
@[simp] theorem State.answerFaulted_b (s : State) :
    (s.answerFaulted).b = s.b := rfl
@[simp] theorem State.answerFaulted_rnd (s : State) :
    (s.answerFaulted).rnd = s.rnd := rfl
@[simp] theorem State.answerFaulted_ph (s : State) :
    (s.answerFaulted).ph = s.ph := rfl
@[simp] theorem State.answerFaulted_kv (s : State) :
    (s.answerFaulted).kv = s.kv := rfl
@[simp] theorem State.answerFaulted_ivv (s : State) :
    (s.answerFaulted).ivv = s.ivv := rfl
@[simp] theorem State.answerFaulted_sv (s : State) :
    (s.answerFaulted).sv = s.sv := rfl
@[simp] theorem State.answerFaulted_iv (s : State) :
    (s.answerFaulted).iv = s.iv := rfl
@[simp] theorem State.answerFaulted_fb (s : State) :
    (s.answerFaulted).fb = s.fb := rfl
@[simp] theorem State.answerFaulted_mode (s : State) :
    (s.answerFaulted).mode = s.mode := rfl
@[simp] theorem State.answerFaulted_dir (s : State) :
    (s.answerFaulted).dir = s.dir := rfl
@[simp] theorem State.answerFaulted_err (s : State) :
    (s.answerFaulted).err = s.err := rfl
@[simp] theorem State.answerFaulted_rx (s : State) :
    (s.answerFaulted).rx = s.rx := rfl
@[simp] theorem State.answerFaulted_rst (s : State) :
    (s.answerFaulted).rst = s.rst := rfl
@[simp] theorem State.answerFaulted_tx (s : State) :
    (s.answerFaulted).tx = s.tx ++ [⟨s.err, []⟩] := rfl

@[simp] theorem State.setKey_k (s : State) (kf : KeyFile) :
    (s.setKey kf).k = kf := rfl
@[simp] theorem State.setKey_a (s : State) (kf : KeyFile) :
    (s.setKey kf).a = s.a := rfl
@[simp] theorem State.setKey_b (s : State) (kf : KeyFile) :
    (s.setKey kf).b = s.b := rfl
@[simp] theorem State.setKey_rnd (s : State) (kf : KeyFile) :
    (s.setKey kf).rnd = s.rnd := rfl
@[simp] theorem State.setKey_ph (s : State) (kf : KeyFile) :
    (s.setKey kf).ph = s.ph := rfl
@[simp] theorem State.setKey_kv (s : State) (kf : KeyFile) :
    (s.setKey kf).kv = true := rfl
@[simp] theorem State.setKey_ivv (s : State) (kf : KeyFile) :
    (s.setKey kf).ivv = false := rfl
@[simp] theorem State.setKey_sv (s : State) (kf : KeyFile) :
    (s.setKey kf).sv = false := rfl
@[simp] theorem State.setKey_iv (s : State) (kf : KeyFile) :
    (s.setKey kf).iv = s.iv := rfl
@[simp] theorem State.setKey_fb (s : State) (kf : KeyFile) :
    (s.setKey kf).fb = s.fb := rfl
@[simp] theorem State.setKey_mode (s : State) (kf : KeyFile) :
    (s.setKey kf).mode = s.mode := rfl
@[simp] theorem State.setKey_dir (s : State) (kf : KeyFile) :
    (s.setKey kf).dir = s.dir := rfl
@[simp] theorem State.setKey_err (s : State) (kf : KeyFile) :
    (s.setKey kf).err = s.err := rfl
@[simp] theorem State.setKey_rx (s : State) (kf : KeyFile) :
    (s.setKey kf).rx = s.rx := rfl
@[simp] theorem State.setKey_rst (s : State) (kf : KeyFile) :
    (s.setKey kf).rst = s.rst := rfl
@[simp] theorem State.setKey_tx (s : State) (kf : KeyFile) :
    (s.setKey kf).tx = s.tx := rfl

@[simp] theorem State.setIv_k (s : State) (x : Block) :
    (s.setIv x).k = s.k := rfl
@[simp] theorem State.setIv_a (s : State) (x : Block) :
    (s.setIv x).a = s.a := rfl
@[simp] theorem State.setIv_b (s : State) (x : Block) :
    (s.setIv x).b = s.b := rfl
@[simp] theorem State.setIv_rnd (s : State) (x : Block) :
    (s.setIv x).rnd = s.rnd := rfl
@[simp] theorem State.setIv_ph (s : State) (x : Block) :
    (s.setIv x).ph = s.ph := rfl
@[simp] theorem State.setIv_kv (s : State) (x : Block) :
    (s.setIv x).kv = s.kv := rfl
@[simp] theorem State.setIv_ivv (s : State) (x : Block) :
    (s.setIv x).ivv = true := rfl
@[simp] theorem State.setIv_sv (s : State) (x : Block) :
    (s.setIv x).sv = s.sv := rfl
@[simp] theorem State.setIv_iv (s : State) (x : Block) :
    (s.setIv x).iv = x := rfl
@[simp] theorem State.setIv_fb (s : State) (x : Block) :
    (s.setIv x).fb = s.fb := rfl
@[simp] theorem State.setIv_mode (s : State) (x : Block) :
    (s.setIv x).mode = s.mode := rfl
@[simp] theorem State.setIv_dir (s : State) (x : Block) :
    (s.setIv x).dir = s.dir := rfl
@[simp] theorem State.setIv_err (s : State) (x : Block) :
    (s.setIv x).err = s.err := rfl
@[simp] theorem State.setIv_rx (s : State) (x : Block) :
    (s.setIv x).rx = s.rx := rfl
@[simp] theorem State.setIv_rst (s : State) (x : Block) :
    (s.setIv x).rst = s.rst := rfl
@[simp] theorem State.setIv_tx (s : State) (x : Block) :
    (s.setIv x).tx = s.tx := rfl

@[simp] theorem State.openStream_k (s : State) (m : Mode) (d : Dir) :
    (s.openStream m d).k = s.k := rfl
@[simp] theorem State.openStream_a (s : State) (m : Mode) (d : Dir) :
    (s.openStream m d).a = s.a := rfl
@[simp] theorem State.openStream_b (s : State) (m : Mode) (d : Dir) :
    (s.openStream m d).b = s.b := rfl
@[simp] theorem State.openStream_rnd (s : State) (m : Mode) (d : Dir) :
    (s.openStream m d).rnd = s.rnd := rfl
@[simp] theorem State.openStream_ph (s : State) (m : Mode) (d : Dir) :
    (s.openStream m d).ph = s.ph := rfl
@[simp] theorem State.openStream_kv (s : State) (m : Mode) (d : Dir) :
    (s.openStream m d).kv = s.kv := rfl
@[simp] theorem State.openStream_ivv (s : State) (m : Mode) (d : Dir) :
    (s.openStream m d).ivv = s.ivv := rfl
@[simp] theorem State.openStream_sv (s : State) (m : Mode) (d : Dir) :
    (s.openStream m d).sv = true := rfl
@[simp] theorem State.openStream_iv (s : State) (m : Mode) (d : Dir) :
    (s.openStream m d).iv = s.iv := rfl
@[simp] theorem State.openStream_fb (s : State) (m : Mode) (d : Dir) :
    (s.openStream m d).fb = if s.ivv then s.iv else s.fb := rfl
@[simp] theorem State.openStream_mode (s : State) (m : Mode) (d : Dir) :
    (s.openStream m d).mode = m := rfl
@[simp] theorem State.openStream_dir (s : State) (m : Mode) (d : Dir) :
    (s.openStream m d).dir = d := rfl
@[simp] theorem State.openStream_err (s : State) (m : Mode) (d : Dir) :
    (s.openStream m d).err = s.err := rfl
@[simp] theorem State.openStream_rx (s : State) (m : Mode) (d : Dir) :
    (s.openStream m d).rx = s.rx := rfl
@[simp] theorem State.openStream_rst (s : State) (m : Mode) (d : Dir) :
    (s.openStream m d).rst = s.rst := rfl
@[simp] theorem State.openStream_tx (s : State) (m : Mode) (d : Dir) :
    (s.openStream m d).tx = s.tx := rfl

@[simp] theorem State.setEngine_k (s : State) (a b : Word) (n : BitVec 6) :
    (s.setEngine a b n).k = s.k := rfl
@[simp] theorem State.setEngine_a (s : State) (a b : Word) (n : BitVec 6) :
    (s.setEngine a b n).a = a := rfl
@[simp] theorem State.setEngine_b (s : State) (a b : Word) (n : BitVec 6) :
    (s.setEngine a b n).b = b := rfl
@[simp] theorem State.setEngine_rnd (s : State) (a b : Word) (n : BitVec 6) :
    (s.setEngine a b n).rnd = n := rfl
@[simp] theorem State.setEngine_ph (s : State) (a b : Word) (n : BitVec 6) :
    (s.setEngine a b n).ph = s.ph := rfl
@[simp] theorem State.setEngine_kv (s : State) (a b : Word) (n : BitVec 6) :
    (s.setEngine a b n).kv = s.kv := rfl
@[simp] theorem State.setEngine_ivv (s : State) (a b : Word) (n : BitVec 6) :
    (s.setEngine a b n).ivv = s.ivv := rfl
@[simp] theorem State.setEngine_sv (s : State) (a b : Word) (n : BitVec 6) :
    (s.setEngine a b n).sv = s.sv := rfl
@[simp] theorem State.setEngine_iv (s : State) (a b : Word) (n : BitVec 6) :
    (s.setEngine a b n).iv = s.iv := rfl
@[simp] theorem State.setEngine_fb (s : State) (a b : Word) (n : BitVec 6) :
    (s.setEngine a b n).fb = s.fb := rfl
@[simp] theorem State.setEngine_mode (s : State) (a b : Word) (n : BitVec 6) :
    (s.setEngine a b n).mode = s.mode := rfl
@[simp] theorem State.setEngine_dir (s : State) (a b : Word) (n : BitVec 6) :
    (s.setEngine a b n).dir = s.dir := rfl
@[simp] theorem State.setEngine_err (s : State) (a b : Word) (n : BitVec 6) :
    (s.setEngine a b n).err = s.err := rfl
@[simp] theorem State.setEngine_rx (s : State) (a b : Word) (n : BitVec 6) :
    (s.setEngine a b n).rx = s.rx := rfl
@[simp] theorem State.setEngine_rst (s : State) (a b : Word) (n : BitVec 6) :
    (s.setEngine a b n).rst = s.rst := rfl
@[simp] theorem State.setEngine_tx (s : State) (a b : Word) (n : BitVec 6) :
    (s.setEngine a b n).tx = s.tx := rfl

@[simp] theorem State.setFb_k (s : State) (x : Block) :
    (s.setFb x).k = s.k := rfl
@[simp] theorem State.setFb_a (s : State) (x : Block) :
    (s.setFb x).a = s.a := rfl
@[simp] theorem State.setFb_b (s : State) (x : Block) :
    (s.setFb x).b = s.b := rfl
@[simp] theorem State.setFb_rnd (s : State) (x : Block) :
    (s.setFb x).rnd = s.rnd := rfl
@[simp] theorem State.setFb_ph (s : State) (x : Block) :
    (s.setFb x).ph = s.ph := rfl
@[simp] theorem State.setFb_kv (s : State) (x : Block) :
    (s.setFb x).kv = s.kv := rfl
@[simp] theorem State.setFb_ivv (s : State) (x : Block) :
    (s.setFb x).ivv = s.ivv := rfl
@[simp] theorem State.setFb_sv (s : State) (x : Block) :
    (s.setFb x).sv = s.sv := rfl
@[simp] theorem State.setFb_iv (s : State) (x : Block) :
    (s.setFb x).iv = s.iv := rfl
@[simp] theorem State.setFb_fb (s : State) (x : Block) :
    (s.setFb x).fb = x := rfl
@[simp] theorem State.setFb_mode (s : State) (x : Block) :
    (s.setFb x).mode = s.mode := rfl
@[simp] theorem State.setFb_dir (s : State) (x : Block) :
    (s.setFb x).dir = s.dir := rfl
@[simp] theorem State.setFb_err (s : State) (x : Block) :
    (s.setFb x).err = s.err := rfl
@[simp] theorem State.setFb_rx (s : State) (x : Block) :
    (s.setFb x).rx = s.rx := rfl
@[simp] theorem State.setFb_rst (s : State) (x : Block) :
    (s.setFb x).rst = s.rst := rfl
@[simp] theorem State.setFb_tx (s : State) (x : Block) :
    (s.setFb x).tx = s.tx := rfl

@[simp] theorem State.setPh_k (s : State) (p : Phase) :
    (s.setPh p).k = s.k := rfl
@[simp] theorem State.setPh_a (s : State) (p : Phase) :
    (s.setPh p).a = s.a := rfl
@[simp] theorem State.setPh_b (s : State) (p : Phase) :
    (s.setPh p).b = s.b := rfl
@[simp] theorem State.setPh_rnd (s : State) (p : Phase) :
    (s.setPh p).rnd = s.rnd := rfl
@[simp] theorem State.setPh_ph (s : State) (p : Phase) :
    (s.setPh p).ph = p := rfl
@[simp] theorem State.setPh_kv (s : State) (p : Phase) :
    (s.setPh p).kv = s.kv := rfl
@[simp] theorem State.setPh_ivv (s : State) (p : Phase) :
    (s.setPh p).ivv = s.ivv := rfl
@[simp] theorem State.setPh_sv (s : State) (p : Phase) :
    (s.setPh p).sv = s.sv := rfl
@[simp] theorem State.setPh_iv (s : State) (p : Phase) :
    (s.setPh p).iv = s.iv := rfl
@[simp] theorem State.setPh_fb (s : State) (p : Phase) :
    (s.setPh p).fb = s.fb := rfl
@[simp] theorem State.setPh_mode (s : State) (p : Phase) :
    (s.setPh p).mode = s.mode := rfl
@[simp] theorem State.setPh_dir (s : State) (p : Phase) :
    (s.setPh p).dir = s.dir := rfl
@[simp] theorem State.setPh_err (s : State) (p : Phase) :
    (s.setPh p).err = s.err := rfl
@[simp] theorem State.setPh_rx (s : State) (p : Phase) :
    (s.setPh p).rx = s.rx := rfl
@[simp] theorem State.setPh_rst (s : State) (p : Phase) :
    (s.setPh p).rst = s.rst := rfl
@[simp] theorem State.setPh_tx (s : State) (p : Phase) :
    (s.setPh p).tx = s.tx := rfl

@[simp] theorem State.withRx_k (s : State) (bytes : List Byte) :
    (s.withRx bytes).k = s.k := rfl
@[simp] theorem State.withRx_a (s : State) (bytes : List Byte) :
    (s.withRx bytes).a = s.a := rfl
@[simp] theorem State.withRx_b (s : State) (bytes : List Byte) :
    (s.withRx bytes).b = s.b := rfl
@[simp] theorem State.withRx_rnd (s : State) (bytes : List Byte) :
    (s.withRx bytes).rnd = s.rnd := rfl
@[simp] theorem State.withRx_ph (s : State) (bytes : List Byte) :
    (s.withRx bytes).ph = s.ph := rfl
@[simp] theorem State.withRx_kv (s : State) (bytes : List Byte) :
    (s.withRx bytes).kv = s.kv := rfl
@[simp] theorem State.withRx_ivv (s : State) (bytes : List Byte) :
    (s.withRx bytes).ivv = s.ivv := rfl
@[simp] theorem State.withRx_sv (s : State) (bytes : List Byte) :
    (s.withRx bytes).sv = s.sv := rfl
@[simp] theorem State.withRx_iv (s : State) (bytes : List Byte) :
    (s.withRx bytes).iv = s.iv := rfl
@[simp] theorem State.withRx_fb (s : State) (bytes : List Byte) :
    (s.withRx bytes).fb = s.fb := rfl
@[simp] theorem State.withRx_mode (s : State) (bytes : List Byte) :
    (s.withRx bytes).mode = s.mode := rfl
@[simp] theorem State.withRx_dir (s : State) (bytes : List Byte) :
    (s.withRx bytes).dir = s.dir := rfl
@[simp] theorem State.withRx_err (s : State) (bytes : List Byte) :
    (s.withRx bytes).err = s.err := rfl
@[simp] theorem State.withRx_rx (s : State) (bytes : List Byte) :
    (s.withRx bytes).rx = bytes := rfl
@[simp] theorem State.withRx_rst (s : State) (bytes : List Byte) :
    (s.withRx bytes).rst = s.rst := rfl
@[simp] theorem State.withRx_tx (s : State) (bytes : List Byte) :
    (s.withRx bytes).tx = s.tx := rfl

@[simp] theorem State.deliver_k (s : State) (bytes : List Byte) :
    (s.deliver bytes).k = s.k := rfl
@[simp] theorem State.deliver_a (s : State) (bytes : List Byte) :
    (s.deliver bytes).a = s.a := rfl
@[simp] theorem State.deliver_b (s : State) (bytes : List Byte) :
    (s.deliver bytes).b = s.b := rfl
@[simp] theorem State.deliver_rnd (s : State) (bytes : List Byte) :
    (s.deliver bytes).rnd = s.rnd := rfl
@[simp] theorem State.deliver_ph (s : State) (bytes : List Byte) :
    (s.deliver bytes).ph = s.ph := rfl
@[simp] theorem State.deliver_kv (s : State) (bytes : List Byte) :
    (s.deliver bytes).kv = s.kv := rfl
@[simp] theorem State.deliver_ivv (s : State) (bytes : List Byte) :
    (s.deliver bytes).ivv = s.ivv := rfl
@[simp] theorem State.deliver_sv (s : State) (bytes : List Byte) :
    (s.deliver bytes).sv = s.sv := rfl
@[simp] theorem State.deliver_iv (s : State) (bytes : List Byte) :
    (s.deliver bytes).iv = s.iv := rfl
@[simp] theorem State.deliver_fb (s : State) (bytes : List Byte) :
    (s.deliver bytes).fb = s.fb := rfl
@[simp] theorem State.deliver_mode (s : State) (bytes : List Byte) :
    (s.deliver bytes).mode = s.mode := rfl
@[simp] theorem State.deliver_dir (s : State) (bytes : List Byte) :
    (s.deliver bytes).dir = s.dir := rfl
@[simp] theorem State.deliver_err (s : State) (bytes : List Byte) :
    (s.deliver bytes).err = s.err := rfl
@[simp] theorem State.deliver_rx (s : State) (bytes : List Byte) :
    (s.deliver bytes).rx = s.rx ++ bytes := rfl
@[simp] theorem State.deliver_rst (s : State) (bytes : List Byte) :
    (s.deliver bytes).rst = s.rst := rfl
@[simp] theorem State.deliver_tx (s : State) (bytes : List Byte) :
    (s.deliver bytes).tx = s.tx := rfl

@[simp] theorem State.assertReset_k (s : State) :
    (s.assertReset).k = s.k := rfl
@[simp] theorem State.assertReset_a (s : State) :
    (s.assertReset).a = s.a := rfl
@[simp] theorem State.assertReset_b (s : State) :
    (s.assertReset).b = s.b := rfl
@[simp] theorem State.assertReset_rnd (s : State) :
    (s.assertReset).rnd = s.rnd := rfl
@[simp] theorem State.assertReset_ph (s : State) :
    (s.assertReset).ph = s.ph := rfl
@[simp] theorem State.assertReset_kv (s : State) :
    (s.assertReset).kv = s.kv := rfl
@[simp] theorem State.assertReset_ivv (s : State) :
    (s.assertReset).ivv = s.ivv := rfl
@[simp] theorem State.assertReset_sv (s : State) :
    (s.assertReset).sv = s.sv := rfl
@[simp] theorem State.assertReset_iv (s : State) :
    (s.assertReset).iv = s.iv := rfl
@[simp] theorem State.assertReset_fb (s : State) :
    (s.assertReset).fb = s.fb := rfl
@[simp] theorem State.assertReset_mode (s : State) :
    (s.assertReset).mode = s.mode := rfl
@[simp] theorem State.assertReset_dir (s : State) :
    (s.assertReset).dir = s.dir := rfl
@[simp] theorem State.assertReset_err (s : State) :
    (s.assertReset).err = s.err := rfl
@[simp] theorem State.assertReset_rx (s : State) :
    (s.assertReset).rx = s.rx := rfl
@[simp] theorem State.assertReset_rst (s : State) :
    (s.assertReset).rst = true := rfl
@[simp] theorem State.assertReset_tx (s : State) :
    (s.assertReset).tx = s.tx := rfl

@[simp] theorem State.load_k (c : Config) (x : Block) (s : State) :
    (State.load c x s).k = s.k := rfl
@[simp] theorem State.load_a (c : Config) (x : Block) (s : State) :
    (State.load c x s).a = h2w c.halfOrder x.last := rfl
@[simp] theorem State.load_b (c : Config) (x : Block) (s : State) :
    (State.load c x s).b = h2w c.halfOrder x.first := rfl
@[simp] theorem State.load_rnd (c : Config) (x : Block) (s : State) :
    (State.load c x s).rnd = 0 := rfl
@[simp] theorem State.load_ph (c : Config) (x : Block) (s : State) :
    (State.load c x s).ph = s.ph := rfl
@[simp] theorem State.load_kv (c : Config) (x : Block) (s : State) :
    (State.load c x s).kv = s.kv := rfl
@[simp] theorem State.load_ivv (c : Config) (x : Block) (s : State) :
    (State.load c x s).ivv = s.ivv := rfl
@[simp] theorem State.load_sv (c : Config) (x : Block) (s : State) :
    (State.load c x s).sv = s.sv := rfl
@[simp] theorem State.load_iv (c : Config) (x : Block) (s : State) :
    (State.load c x s).iv = s.iv := rfl
@[simp] theorem State.load_fb (c : Config) (x : Block) (s : State) :
    (State.load c x s).fb = s.fb := rfl
@[simp] theorem State.load_mode (c : Config) (x : Block) (s : State) :
    (State.load c x s).mode = s.mode := rfl
@[simp] theorem State.load_dir (c : Config) (x : Block) (s : State) :
    (State.load c x s).dir = s.dir := rfl
@[simp] theorem State.load_err (c : Config) (x : Block) (s : State) :
    (State.load c x s).err = s.err := rfl
@[simp] theorem State.load_rx (c : Config) (x : Block) (s : State) :
    (State.load c x s).rx = s.rx := rfl
@[simp] theorem State.load_rst (c : Config) (x : Block) (s : State) :
    (State.load c x s).rst = s.rst := rfl
@[simp] theorem State.load_tx (c : Config) (x : Block) (s : State) :
    (State.load c x s).tx = s.tx := rfl

@[simp] theorem State.round_k (c : Config) (o : Order) (s : State) :
    (State.round c o s).k = s.k := rfl
@[simp] theorem State.round_a (c : Config) (o : Order) (s : State) :
    (State.round c o s).a = s.b ^^^ roundF c s.a (keyRead s (kidx o s.rnd.toNat)) := rfl
@[simp] theorem State.round_b (c : Config) (o : Order) (s : State) :
    (State.round c o s).b = s.a := rfl
@[simp] theorem State.round_rnd (c : Config) (o : Order) (s : State) :
    (State.round c o s).rnd = s.rnd + 1 := rfl
@[simp] theorem State.round_ph (c : Config) (o : Order) (s : State) :
    (State.round c o s).ph = s.ph := rfl
@[simp] theorem State.round_kv (c : Config) (o : Order) (s : State) :
    (State.round c o s).kv = s.kv := rfl
@[simp] theorem State.round_ivv (c : Config) (o : Order) (s : State) :
    (State.round c o s).ivv = s.ivv := rfl
@[simp] theorem State.round_sv (c : Config) (o : Order) (s : State) :
    (State.round c o s).sv = s.sv := rfl
@[simp] theorem State.round_iv (c : Config) (o : Order) (s : State) :
    (State.round c o s).iv = s.iv := rfl
@[simp] theorem State.round_fb (c : Config) (o : Order) (s : State) :
    (State.round c o s).fb = s.fb := rfl
@[simp] theorem State.round_mode (c : Config) (o : Order) (s : State) :
    (State.round c o s).mode = s.mode := rfl
@[simp] theorem State.round_dir (c : Config) (o : Order) (s : State) :
    (State.round c o s).dir = s.dir := rfl
@[simp] theorem State.round_err (c : Config) (o : Order) (s : State) :
    (State.round c o s).err = s.err := rfl
@[simp] theorem State.round_rx (c : Config) (o : Order) (s : State) :
    (State.round c o s).rx = s.rx := rfl
@[simp] theorem State.round_rst (c : Config) (o : Order) (s : State) :
    (State.round c o s).rst = s.rst := rfl
@[simp] theorem State.round_tx (c : Config) (o : Order) (s : State) :
    (State.round c o s).tx = s.tx := rfl

@[simp] theorem State.issue_k (c : Config) (x : Block) (s : State) :
    (State.issue c x s).k = s.k := rfl
@[simp] theorem State.issue_a (c : Config) (x : Block) (s : State) :
    (State.issue c x s).a = h2w c.halfOrder (feistelInput s.mode s.dir x s.fb).last := rfl
@[simp] theorem State.issue_b (c : Config) (x : Block) (s : State) :
    (State.issue c x s).b = h2w c.halfOrder (feistelInput s.mode s.dir x s.fb).first := rfl
@[simp] theorem State.issue_rnd (c : Config) (x : Block) (s : State) :
    (State.issue c x s).rnd = 0 := rfl
@[simp] theorem State.issue_ph (c : Config) (x : Block) (s : State) :
    (State.issue c x s).ph = .run x := rfl
@[simp] theorem State.issue_kv (c : Config) (x : Block) (s : State) :
    (State.issue c x s).kv = s.kv := rfl
@[simp] theorem State.issue_ivv (c : Config) (x : Block) (s : State) :
    (State.issue c x s).ivv = s.ivv := rfl
@[simp] theorem State.issue_sv (c : Config) (x : Block) (s : State) :
    (State.issue c x s).sv = s.sv := rfl
@[simp] theorem State.issue_iv (c : Config) (x : Block) (s : State) :
    (State.issue c x s).iv = s.iv := rfl
@[simp] theorem State.issue_fb (c : Config) (x : Block) (s : State) :
    (State.issue c x s).fb = s.fb := rfl
@[simp] theorem State.issue_mode (c : Config) (x : Block) (s : State) :
    (State.issue c x s).mode = s.mode := rfl
@[simp] theorem State.issue_dir (c : Config) (x : Block) (s : State) :
    (State.issue c x s).dir = s.dir := rfl
@[simp] theorem State.issue_err (c : Config) (x : Block) (s : State) :
    (State.issue c x s).err = s.err := rfl
@[simp] theorem State.issue_rx (c : Config) (x : Block) (s : State) :
    (State.issue c x s).rx = s.rx := rfl
@[simp] theorem State.issue_rst (c : Config) (x : Block) (s : State) :
    (State.issue c x s).rst = s.rst := rfl
@[simp] theorem State.issue_tx (c : Config) (x : Block) (s : State) :
    (State.issue c x s).tx = s.tx := rfl

@[simp] theorem State.retire_k (c : Config) (x : Block) (s : State) :
    (State.retire c x s).k = s.k := rfl
@[simp] theorem State.retire_a (c : Config) (x : Block) (s : State) :
    (State.retire c x s).a = s.a := rfl
@[simp] theorem State.retire_b (c : Config) (x : Block) (s : State) :
    (State.retire c x s).b = s.b := rfl
@[simp] theorem State.retire_rnd (c : Config) (x : Block) (s : State) :
    (State.retire c x s).rnd = s.rnd := rfl
@[simp] theorem State.retire_ph (c : Config) (x : Block) (s : State) :
    (State.retire c x s).ph = .idle := rfl
@[simp] theorem State.retire_kv (c : Config) (x : Block) (s : State) :
    (State.retire c x s).kv = s.kv := rfl
@[simp] theorem State.retire_ivv (c : Config) (x : Block) (s : State) :
    (State.retire c x s).ivv = s.ivv := rfl
@[simp] theorem State.retire_sv (c : Config) (x : Block) (s : State) :
    (State.retire c x s).sv = s.sv := rfl
@[simp] theorem State.retire_iv (c : Config) (x : Block) (s : State) :
    (State.retire c x s).iv = s.iv := rfl
@[simp] theorem State.retire_fb (c : Config) (x : Block) (s : State) :
    (State.retire c x s).fb = nextFb s.mode s.dir x (State.unload c s)
      (blockOutput s.mode s.dir x (State.unload c s) s.fb) s.fb := rfl
@[simp] theorem State.retire_mode (c : Config) (x : Block) (s : State) :
    (State.retire c x s).mode = s.mode := rfl
@[simp] theorem State.retire_dir (c : Config) (x : Block) (s : State) :
    (State.retire c x s).dir = s.dir := rfl
@[simp] theorem State.retire_err (c : Config) (x : Block) (s : State) :
    (State.retire c x s).err = s.err := rfl
@[simp] theorem State.retire_rx (c : Config) (x : Block) (s : State) :
    (State.retire c x s).rx = s.rx := rfl
@[simp] theorem State.retire_rst (c : Config) (x : Block) (s : State) :
    (State.retire c x s).rst = s.rst := rfl
@[simp] theorem State.retire_tx (c : Config) (x : Block) (s : State) :
    (State.retire c x s).tx = s.tx ++
      [⟨0, blockBytes (blockOutput s.mode s.dir x (State.unload c s) s.fb)⟩] := rfl

end Sys2Proof.Machine
end

