-- ==== Sys2Proof/Laws/Commands.lean ====
section
/-!
SUPPORT. What a command can do, said once: the three outcomes of `runCommand`, and the state each command
ends in.
-/

namespace Sys2Proof.Machine

open Sys2Proof

theorem failIf_true (c : FaultCause) : failIf true c = some c := rfl

theorem failIf_false (c : FaultCause) : failIf false c = none := rfl

theorem firstFault_none (l : List (Option FaultCause)) :
    firstFault l = none ↔ ∀ o ∈ l, o = none := by
  induction l with
  | nil => simp [firstFault]
  | cons o tl ih => cases o <;> simp [firstFault, ih]

theorem faulted_iff (s : State) : s.faulted = true ↔ s.ph = .fault := by
  simp [State.faulted]

/-- Everything a command can do: answer as a faulted core, take its first failing check as a fault, or
have its effect. -/
theorem runCommand_cases (cs : List (Option FaultCause)) (e : State → State) (s : State) :
    (s.ph = .fault ∧ runCommand cs e s = s.answerFaulted) ∨
    (s.ph ≠ .fault ∧ ∃ c, firstFault cs = some c ∧ runCommand cs e s = s.faultEntry c) ∨
    (s.ph ≠ .fault ∧ firstFault cs = none ∧ runCommand cs e s = e s) := by
  by_cases h : s.ph = .fault
  · exact .inl ⟨h, by simp [runCommand, State.faulted, h]⟩
  · cases hc : firstFault cs with
    | some c => exact .inr (.inl ⟨h, c, rfl, by simp [runCommand, State.faulted, h, hc]⟩)
    | none => exact .inr (.inr ⟨h, rfl, by simp [runCommand, State.faulted, h, hc]⟩)

theorem runCommand_faulted {cs : List (Option FaultCause)} {e : State → State} {s : State}
    (h : s.ph = .fault) : runCommand cs e s = s.answerFaulted := by
  simp [runCommand, State.faulted, h]

theorem runCommand_fails {cs : List (Option FaultCause)} {e : State → State} {s : State} {c : FaultCause}
    (h : s.ph ≠ .fault) (hc : firstFault cs = some c) : runCommand cs e s = s.faultEntry c := by
  simp [runCommand, State.faulted, h, hc]

theorem runCommand_effect {cs : List (Option FaultCause)} {e : State → State} {s : State}
    (h : s.ph ≠ .fault) (hc : firstFault cs = none) : runCommand cs e s = e s := by
  simp [runCommand, State.faulted, h, hc]

/-- The state a command ends in: no command stops. -/
def afterCommand (i : Instr) (s : State) : State :=
  match i with
  | .ldkey pl => runCommand [checkKeyLen pl] (fun t => (t.setKey (keyFileOf pl)).respond 0 []) s
  | .ldiv pl => runCommand [checkIvLen pl] (fun t => (t.setIv (blockOf pl)).respond 0 []) s
  | .startEcbEnc => startStream .ecb .enc s
  | .startCbcEnc => startStream .cbc .enc s
  | .startCfbEnc => startStream .cfb .enc s
  | .startOfbEnc => startStream .ofb .enc s
  | .startEcbDec => startStream .ecb .dec s
  | .startCbcDec => startStream .cbc .dec s
  | .startCfbDec => startStream .cfb .dec s
  | .startOfbDec => startStream .ofb .dec s
  | .block pl => runBlock hw pl s

theorem exec_eq (i : Instr) (s : State) : exec i s = .next (afterCommand i s) := by
  cases i <;> rfl

theorem exec_startInstr (m : Mode) (d : Dir) (s : State) :
    exec (startInstr m d) s = .next (startStream m d s) := by
  cases m <;> cases d <;> rfl

theorem mem_startForms (i : Instr) (m : Mode) (d : Dir) :
    (i, m, d) ∈ startForms ↔ i = startInstr m d := by
  cases m <;> cases d <;> simp [startForms, startInstr]

theorem runBlock_effect {c : Config} {pl : List Byte} {s : State} (h : s.ph ≠ .fault)
    (hl : pl.length = 8) (hk : s.kv = true) (hs : s.sv = true) :
    runBlock c pl s =
      State.retire c (blockOf pl) (State.engine c (State.issue c (blockOf pl) s)) := by
  refine runCommand_effect h ?_
  simp [blockChecks, checkBlkLen, checkKey, checkStream, failIf, firstFault, hl, hk, hs]

/-- A BLOCK that does not pass its checks ends in one and the same state at either granularity. -/
theorem issueBlock_stops {c : Config} {pl : List Byte} {s : State}
    (h : s.ph = .fault ∨ firstFault (blockChecks pl s) ≠ none) : issueBlock c pl s = runBlock c pl s := by
  by_cases hp : s.ph = .fault
  · rw [issueBlock, runBlock, runCommand_faulted hp, runCommand_faulted hp]
  · obtain ⟨e, he⟩ := Option.ne_none_iff_exists'.1 (h.resolve_left hp)
    rw [issueBlock, runBlock, runCommand_fails hp he, runCommand_fails hp he]

theorem startStream_effect {m : Mode} {d : Dir} {s : State} (h : s.ph ≠ .fault) (hk : s.kv = true)
    (hi : m ≠ .ecb → s.ivv = true) : startStream m d s = (s.openStream m d).respond 0 [] := by
  refine runCommand_effect h ?_
  by_cases hm : m = .ecb
  · simp [checkKey, checkIv, failIf, firstFault, hk, hm]
  · simp [checkKey, checkIv, failIf, firstFault, hk, hi hm]

end Sys2Proof.Machine
end

