-- ==== Sys2Proof/Laws/Frames.lean ====
section
/-!
SUPPORT. Frames on the port: splitting off the first one, and what a step does with it.
-/

namespace Sys2Proof.Machine

open Sys2Proof

/-- A whole frame at the front of the port is split off whole. -/
theorem splitFrame_rawFrame (cmd : Byte) (pl rest : List Byte) (h : pl.length ≤ 255) :
    splitFrame (rawFrame cmd pl ++ rest) = some (cmd, pl, rest) := by
  have hn : (BitVec.ofNat 8 pl.length).toNat = pl.length := by
    simp only [BitVec.toNat_ofNat]; omega
  simp only [rawFrame, List.cons_append, splitFrame, hn]
  simp

/-- What stands at the front of the port when a frame is split off: that frame, then the rest. -/
theorem splitFrame_some {bytes : List Byte} {cmd : Byte} {pl rest : List Byte}
    (h : splitFrame bytes = some (cmd, pl, rest)) :
    bytes = rawFrame cmd pl ++ rest ∧ pl.length ≤ 255 := by
  match bytes with
  | [] => cases h
  | [_] => cases h
  | c :: len :: tl =>
    rw [splitFrame] at h
    split at h
    case isFalse => cases h
    case isTrue hl =>
      simp only [Option.some.injEq, Prod.mk.injEq] at h
      obtain ⟨rfl, rfl, rfl⟩ := h
      have h1 : (tl.take len.toNat).length = len.toNat := by simpa using hl
      have h2 := len.isLt
      exact ⟨by simp [rawFrame, h1], by omega⟩

theorem decode_rawFrame (cmd : Byte) (pl rest : List Byte) (h : pl.length ≤ 255) :
    decode (rawFrame cmd pl ++ rest) =
      match decodeFrame cmd pl with
      | .error why => .illegal why rest
      | .ok i => .instr i rest := by
  cases hd : decodeFrame cmd pl <;> simp [decode, splitFrame_rawFrame cmd pl rest h, hd]

/-- What a step is when no reset is asserted and no block is running. -/
theorem fetchStep_accept (ex : Instr → State → Host.Outcome State Fault Refusal) (s : State)
    (hr : s.rst = false) (hp : s.running = false) : fetchStep ex s = acceptFrame ex s := by
  unfold fetchStep
  cases hph : s.ph <;> simp_all [State.running]

theorem fetchStep_run (ex : Instr → State → Host.Outcome State Fault Refusal) (s : State) (x : Block)
    (hr : s.rst = false) (hp : s.ph = .run x) : fetchStep ex s = runStep hw x s := by
  simp [fetchStep, hr, hp]

theorem fetchStep_reset (ex : Instr → State → Host.Outcome State Fault Refusal) (s : State)
    (hr : s.rst = true) : fetchStep ex s = .next s.resetEvent := by
  simp [fetchStep, hr]

/-- Everything a micro-step of a running block can do. -/
theorem runStep_cases (c : Config) (x : Block) (s : State) :
    (s.rnd.toNat < 32 ∧ runStep c x s = .next (State.round c (keyOrder s.mode s.dir) s)) ∨
    (s.rnd = 32 ∧ runStep c x s = .next (State.retire c x s)) ∨
    (32 < s.rnd.toNat ∧ runStep c x s = .fault .roundCounter) := by
  by_cases h : s.rnd.toNat < 32
  · exact .inl ⟨h, by simp [runStep, h]⟩
  · by_cases h2 : s.rnd = 32
    · exact .inr (.inl ⟨h2, by simp [runStep, h2]⟩)
    · refine .inr (.inr ⟨?_, by rw [runStep, if_neg h, if_neg h2]⟩)
      have : s.rnd.toNat ≠ 32 := fun hh => h2 (BitVec.eq_of_toNat_eq (by simpa using hh))
      omega

end Sys2Proof.Machine
end

