-- ==== Sys2Proof/Laws/Datapath.lean ====
section
/-!
SUPPORT. The engine and the payload operands: what a row of ROUNDs leaves alone, and blocks against their
bytes.
-/

namespace Sys2Proof.Machine

open Sys2Proof

theorem blockOf_blockBytes (x : Block) : blockOf (blockBytes x) = x := rfl

theorem length_blockBytes (x : Block) : (blockBytes x).length = 8 := rfl

/-- Eight bytes are the bytes of one block. -/
theorem exists_blockBytes {pl : List Byte} (h : pl.length = 8) : ∃ x, blockBytes x = pl := by
  match pl, h with
  | [a, b, c, d, e, f, g, i], _ => exact ⟨⟨⟨a, b, c, d⟩, ⟨e, f, g, i⟩⟩, rfl⟩

theorem blockBytes_injective {x y : Block} (h : blockBytes x = blockBytes y) : x = y := by
  rw [← blockOf_blockBytes x, h, blockOf_blockBytes]

/-- A row of ROUNDs does not look at the phase. -/
theorem rounds_setPh (c : Config) (o : Order) (p : Phase) :
    ∀ (n : Nat) (s : State), State.rounds c o n (s.setPh p) = (State.rounds c o n s).setPh p
  | 0, _ => rfl
  | n + 1, s => by rw [State.rounds, State.rounds, ← rounds_setPh c o p n]; rfl

/-- A row of ROUNDs does not look at the port. -/
theorem rounds_withRx (c : Config) (o : Order) (bytes : List Byte) :
    ∀ (n : Nat) (s : State), State.rounds c o n (s.withRx bytes) = (State.rounds c o n s).withRx bytes
  | 0, _ => rfl
  | n + 1, s => by rw [State.rounds, State.rounds, ← rounds_withRx c o bytes n]; rfl

/-- Everything a row of ROUNDs leaves alone: it writes the datapath registers only. -/
theorem rounds_writes (c : Config) (o : Order) :
    ∀ (n : Nat) (s : State), ∃ a b r, State.rounds c o n s = s.setEngine a b r
  | 0, s => ⟨s.a, s.b, s.rnd, rfl⟩
  | n + 1, s => by
    obtain ⟨a, b, r, h⟩ := rounds_writes c o n (State.round c o s)
    exact ⟨a, b, r, h⟩

/-- Fault entry of a frame taken off the port. -/
theorem faultEntry_withRx (s : State) (rest : List Byte) (c : FaultCause) :
    (s.withRx rest).faultEntry c = afterFault s rest (faultCode c) := rfl

/-- The answer of a faulted core to a frame taken off the port. -/
theorem answerFaulted_withRx (s : State) (rest : List Byte) :
    (s.withRx rest).answerFaulted = afterAnswer s rest := rfl

end Sys2Proof.Machine
end

