-- ==== Sys2Proof/Laws/PerInstr.lean ====
section
/-!
SUPPORT. What holds of every command as syntax, command by command: how its frame is laid out, and that
the opcode table has its row.
-/

namespace Sys2Proof.Laws.FrameShape

open Sys2Proof

/-- The frame of a command that fits in one is its command byte and its payload, with nothing behind; the
reserved bit of the command byte is 0 (R61); and some row of the opcode table has this command byte and
builds this command from this payload (R62, R68). -/
def Statement (i : Instr) : Prop :=
  (i.wellFormed = true → splitFrame (encode i) = some (cmdByte i, i.payload, [])) ∧
  cmdZ (cmdByte i) = 0 ∧
  ∃ row ∈ opTable, row.bits = cmdByte i ∧ row.build i.payload = i

theorem split_encode (i : Instr) (h : i.wellFormed = true) :
    splitFrame (encode i) = some (cmdByte i, i.payload, []) := by
  have hl : i.payload.length ≤ 255 := by simpa [Instr.wellFormed] using h
  simpa [encode] using Machine.splitFrame_rawFrame (cmdByte i) i.payload [] hl

theorem ldkey (pl : List Byte) : Statement (.ldkey pl) :=
  ⟨split_encode _, (by show cmdZ (packCmd 1 0 0) = 0; decide), ⟨0x10, 0xFF, 32, 0, .ldkey⟩, by simp [opTable], rfl, rfl⟩

theorem ldiv (pl : List Byte) : Statement (.ldiv pl) :=
  ⟨split_encode _, (by show cmdZ (packCmd 2 0 0) = 0; decide), ⟨0x20, 0xFF, 8, 0, .ldiv⟩, by simp [opTable], rfl, rfl⟩

theorem startEcbEnc : Statement .startEcbEnc :=
  ⟨split_encode _, by decide, ⟨0x30, 0xFF, 0, 0, fun _ => .startEcbEnc⟩, by simp [opTable], rfl, rfl⟩

theorem startCbcEnc : Statement .startCbcEnc :=
  ⟨split_encode _, by decide, ⟨0x31, 0xFF, 0, 0, fun _ => .startCbcEnc⟩, by simp [opTable], rfl, rfl⟩

theorem startCfbEnc : Statement .startCfbEnc :=
  ⟨split_encode _, by decide, ⟨0x32, 0xFF, 0, 0, fun _ => .startCfbEnc⟩, by simp [opTable], rfl, rfl⟩

theorem startOfbEnc : Statement .startOfbEnc :=
  ⟨split_encode _, by decide, ⟨0x33, 0xFF, 0, 0, fun _ => .startOfbEnc⟩, by simp [opTable], rfl, rfl⟩

theorem startEcbDec : Statement .startEcbDec :=
  ⟨split_encode _, by decide, ⟨0x34, 0xFF, 0, 0, fun _ => .startEcbDec⟩, by simp [opTable], rfl, rfl⟩

theorem startCbcDec : Statement .startCbcDec :=
  ⟨split_encode _, by decide, ⟨0x35, 0xFF, 0, 0, fun _ => .startCbcDec⟩, by simp [opTable], rfl, rfl⟩

theorem startCfbDec : Statement .startCfbDec :=
  ⟨split_encode _, by decide, ⟨0x36, 0xFF, 0, 0, fun _ => .startCfbDec⟩, by simp [opTable], rfl, rfl⟩

theorem startOfbDec : Statement .startOfbDec :=
  ⟨split_encode _, by decide, ⟨0x37, 0xFF, 0, 0, fun _ => .startOfbDec⟩, by simp [opTable], rfl, rfl⟩

theorem block (pl : List Byte) : Statement (.block pl) :=
  ⟨split_encode _, (by show cmdZ (packCmd 4 0 0) = 0; decide), ⟨0x40, 0xFF, 8, 8, .block⟩, by simp [opTable], rfl, rfl⟩

end Sys2Proof.Laws.FrameShape
end

