-- ==== Sys2Proof/Laws/Runs.lean ====
section
/-!
SUPPORT. Runs of several steps, one step at a time.
-/

namespace Sys2Proof.Machine

open Sys2Proof

theorem run_next {M : Host.Core} {n : Nat} {s t : M.State} (h : M.step s = .next t) :
    M.run (n + 1) s = M.run n t := by
  rw [Host.Core.run, h]

/-- A run of `n + 1` steps that stops at none is a first step and a run of `n`. -/
theorem run_cases {M : Host.Core} {n : Nat} {s u : M.State} (h : M.run (n + 1) s = .next u) :
    ∃ t, M.step s = .next t ∧ M.run n t = .next u := by
  rw [Host.Core.run] at h
  cases hs : M.step s with
  | next t => rw [hs] at h; exact ⟨t, rfl, h⟩
  | fault r => rw [hs] at h; cases h
  | refused r => rw [hs] at h; cases h

theorem run_fault {M : Host.Core} {n : Nat} {s : M.State} {r : M.Fault} (h : M.step s = .fault r) :
    M.run (n + 1) s = .fault r := by
  rw [Host.Core.run, h]

theorem run_refused {M : Host.Core} {n : Nat} {s : M.State} {r : M.Refusal} (h : M.step s = .refused r) :
    M.run (n + 1) s = .refused r := by
  rw [Host.Core.run, h]

theorem microRun_next {n : Nat} {s t : State} (h : microStep s = .next t) :
    microRun (n + 1) s = microRun n t := by
  rw [microRun, h]

/-- Micro-steps add up. -/
theorem microRun_add (b : Nat) :
    ∀ {a : Nat} {s t : State}, microRun a s = .next t → microRun (a + b) s = microRun b t
  | 0, s, t, h => by
    injection h with h
    rw [Nat.zero_add, h]
  | a + 1, s, t, h => by
    rw [Nat.add_right_comm, microRun]
    rw [microRun] at h
    cases hs : microStep s with
    | next u => rw [hs] at h; exact microRun_add b h
    | fault r => rw [hs] at h; cases h
    | refused r => rw [hs] at h; cases h

theorem execAll_cons (i : Instr) (is : List Instr) (s : State) :
    execAll (i :: is) s = execAll is (afterCommand i s) := by
  rw [execAll, exec_eq]

/-- No list of commands stops. -/
theorem execAll_next (is : List Instr) : ∀ s : State, ∃ t, execAll is s = .next t := by
  induction is with
  | nil => exact fun s => ⟨s, rfl⟩
  | cons i is ih => exact fun s => by rw [execAll_cons]; exact ih _

end Sys2Proof.Machine
end

