-- ==== Sys2Proof/Tests/Slice0.lean ====
section
/-!
SUPPORT. The model's own tests. Every expected value is taken from the spec: the vectors of
spec/95_test_vectors.md (named in each comment) and the encodings of spec/30_encoding.md. Behind them, one
witness for every obligation with hypotheses.
-/

namespace Sys2Proof.Tests

open Sys2Proof Sys2Proof.Machine

/-! ## Small states and readers -/

/-- Eight bytes as a block. -/
def blk (a b c d e f g h : Byte) : Block := ⟨⟨a, b, c, d⟩, ⟨e, f, g, h⟩⟩

/-- The bytes of `KEY1` (spec/95 section 0). -/
def key1Bytes : List Byte :=
  [0x41, 0x42, 0x43, 0x44, 0x45, 0x46, 0x47, 0x48, 0x49, 0x4A, 0x4B, 0x4C, 0x4D, 0x4E, 0x4F, 0x50] ++
  [0x51, 0x52, 0x53, 0x54, 0x55, 0x56, 0x57, 0x58, 0x41, 0x42, 0x43, 0x44, 0x45, 0x46, 0x47, 0x48]

/-- The key file of `KEY1` (V-KS1). -/
def key1 : KeyFile :=
  ⟨0x41424344, 0x45464748, 0x494A4B4C, 0x4D4E4F50, 0x51525354, 0x55565758, 0x41424344, 0x45464748⟩

/-- `IV1`, the string abcdefgh. -/
def iv1 : Block := blk 0x61 0x62 0x63 0x64 0x65 0x66 0x67 0x68

/-- The string Hello, W. -/
def hello : Block := blk 0x48 0x65 0x6C 0x6C 0x6F 0x2C 0x20 0x57

/-- The first block of `P16`. -/
def gost : Block := blk 0x47 0x4F 0x53 0x54 0x32 0x38 0x31 0x34

/-- `F(ENC, hello)` under `KEY1` (V-FE1). -/
def helloEcb : Block := blk 0x55 0x78 0xD8 0x75 0xCA 0x6E 0x23 0x47

/-- After `LDKEY KEY1`. -/
def keyed : State := { State.reset with k := key1, kv := true }

/-- After `LDKEY KEY1; LDIV IV1`. -/
def ready : State := { keyed with iv := iv1, ivv := true }

/-- With a stream of this mode and direction open, `FB` as given. -/
def inStream (m : Mode) (d : Dir) (fb : Block) : State :=
  { ready with fb := fb, mode := m, dir := d, sv := true }

/-- After a fault with this code. -/
def faultedWith (code : Byte) : State := { State.reset with err := code, ph := .fault }

/-- A field of the next state. -/
def next? {α : Type} (f : State → α) (o : Host.Outcome State Fault Refusal) : Option α :=
  match o with
  | .next t => some (f t)
  | .fault _ => none
  | .refused _ => none

/-- The last response and the feedback register. -/
def answerAndFb (t : State) : Option Response × Block := (t.tx.getLast?, t.fb)

/-- A frame at the port of a state. -/
def atPort (s : State) (cmd : Byte) (pl : List Byte) : State := { s with rx := rawFrame cmd pl }

/-- What a step answers to a frame, with `ERR` after it. -/
def answerTo (s : State) (cmd : Byte) (pl : List Byte) : Option (Option Response × Byte) :=
  next? (fun t => (t.tx.getLast?, t.err)) (step (atPort s cmd pl))

/-! ## Well-formedness: an ill-formed term for the check -/

theorem test_wellFormed_refuses_ldkey_256 : (Instr.ldkey (List.replicate 256 0)).wellFormed = false := by
  simp only [Instr.wellFormed, Instr.payload, List.length_replicate]; decide
theorem test_wellFormed_refuses_ldiv_256 : (Instr.ldiv (List.replicate 256 0)).wellFormed = false := by
  simp only [Instr.wellFormed, Instr.payload, List.length_replicate]; decide
theorem test_wellFormed_refuses_block_256 : (Instr.block (List.replicate 256 0)).wellFormed = false := by
  simp only [Instr.wellFormed, Instr.payload, List.length_replicate]; decide
theorem test_wellFormed_takes_255 : (Instr.ldkey (List.replicate 255 0)).wellFormed = true := by
  simp only [Instr.wellFormed, Instr.payload, List.length_replicate]; decide

/-! ## Decoding: one frame per constructor, its command byte written out bit by bit (R61 to R64) -/

theorem test_decode_ldkey :
    decode (0b00010000 :: 0b00100000 :: key1Bytes) = .instr (.ldkey key1Bytes) [] := by decide
theorem test_decode_ldiv :
    decode [0b00100000, 0b00001000, 0x61, 0x62, 0x63, 0x64, 0x65, 0x66, 0x67, 0x68] =
      .instr (.ldiv [0x61, 0x62, 0x63, 0x64, 0x65, 0x66, 0x67, 0x68]) [] := by decide
theorem test_decode_startEcbEnc : decode [0b00110000, 0] = .instr .startEcbEnc [] := by decide
theorem test_decode_startCbcEnc : decode [0b00110001, 0] = .instr .startCbcEnc [] := by decide
theorem test_decode_startCfbEnc : decode [0b00110010, 0] = .instr .startCfbEnc [] := by decide
theorem test_decode_startOfbEnc : decode [0b00110011, 0] = .instr .startOfbEnc [] := by decide
theorem test_decode_startEcbDec : decode [0b00110100, 0] = .instr .startEcbDec [] := by decide
theorem test_decode_startCbcDec : decode [0b00110101, 0] = .instr .startCbcDec [] := by decide
theorem test_decode_startCfbDec : decode [0b00110110, 0] = .instr .startCfbDec [] := by decide
theorem test_decode_startOfbDec : decode [0b00110111, 0] = .instr .startOfbDec [] := by decide
theorem test_decode_block :
    decode [0b01000000, 0b00001000, 0x48, 0x65, 0x6C, 0x6C, 0x6F, 0x2C, 0x20, 0x57] =
      .instr (.block [0x48, 0x65, 0x6C, 0x6C, 0x6F, 0x2C, 0x20, 0x57]) [] := by decide

/-- V-EN10: LDKEY, LDIV and BLOCK with non-zero low bits. -/
theorem test_decode_stray_fields :
    decodeFrame 0x11 key1Bytes = .error .strayFields ∧ decodeFrame 0x24 [0] = .error .strayFields ∧
    decodeFrame 0x41 [0] = .error .strayFields := ⟨rfl, rfl, rfl⟩

/-- V-EN12: 11 legal command bytes and 245 illegal ones. -/
theorem test_decode_counts_legal_bytes :
    (((List.range 256).map (BitVec.ofNat 8)).filter (fun c => (findRow c).isSome)).length = 11 := by
  decide

/-- A frame is taken off with its rest left, and an unfinished one waits (R60). -/
theorem test_decode_leaves_rest :
    decode [0x30, 0x00, 0x40, 0x08] = .instr .startEcbEnc [0x40, 0x08] ∧
    decode [0x40, 0x08, 0x00] = .wait := by decide

/-- V-EN1, V-EN6, V-EN7: the frames of the assembler. -/
theorem test_assemble_ldiv :
    assemble "LDIV \"abcdefgh\"" =
      some [[0x20, 0x08, 0x61, 0x62, 0x63, 0x64, 0x65, 0x66, 0x67, 0x68]] := by decide
theorem test_assemble_raw_and_start :
    assemble "RAW 40 00\nSTART CBC, DEC ; comment" = some [[0x40, 0x01, 0x00], [0x35, 0x00]] := by decide

/-- V-ST10: `ENCRYPT ECB, "Hello, World!"` expands to a START and two BLOCKs. -/
theorem test_assemble_encrypt :
    assemble "ENCRYPT ECB, \"Hello, World!\"" =
      some [[0x30, 0x00], [0x40, 0x08, 0x48, 0x65, 0x6C, 0x6C, 0x6F, 0x2C, 0x20, 0x57],
            [0x40, 0x08, 0x6F, 0x72, 0x6C, 0x64, 0x21, 0x00, 0x00, 0x00]] := by decide

/-! ## The substitution ROM -/

/-- V-SB1, V-SB2. -/
theorem test_rom_first_and_last : romRead hw 0 0x0 = 0x9 ∧ romRead hw 7 0xF = 0x4 := by decide
/-- V-SB3: where each table holds 0. -/
theorem test_rom_zeros :
    [romRead hw 0 0xD, romRead hw 1 0x7, romRead hw 2 0xC, romRead hw 3 0x8, romRead hw 4 0x7,
     romRead hw 5 0x6, romRead hw 6 0x7, romRead hw 7 0x4] = List.replicate 8 0 := by decide
/-- V-SB4: the diagonal. -/
theorem test_rom_diagonal :
    (List.finRange 8).map (fun i => romRead hw i (BitVec.ofNat 4 i.val)) =
      [9, 7, 6, 0xC, 8, 2, 6, 8] := by decide
/-- V-SB5 and V-SB6: columns 0 and F. -/
theorem test_rom_columns :
    (List.finRange 8).map (fun i => romRead hw i 0) = [9, 3, 0xE, 0xE, 0xB, 3, 1, 0xB] ∧
    (List.finRange 8).map (fun i => romRead hw i 0xF) = [5, 1, 9, 6, 6, 6, 0xE, 4] := by decide
/-- V-SB7: the sum of all entries; each row holds every nibble (R80: all rows permutations). -/
theorem test_rom_sum : (sboxRows.map List.sum).sum = 960 := by decide
theorem test_rom_rows_are_permutations :
    ∀ row ∈ sboxRows, row.length = 16 ∧ ∀ v ∈ List.range 16, v ∈ row := by decide
/-- V-SB8: address 58. -/
theorem test_rom_address : romAddr 3 0xA = 58 ∧ romReadLinear hw 58 = 0xB := by decide

/-! ## The key schedule -/

/-- V-KS1. -/
theorem test_ldkey_words :
    next? (fun t => (t.k, t.kv, t.ivv, t.sv)) (exec (.ldkey key1Bytes) (inStream .cbc .enc iv1)) =
      some (key1, true, false, false) := by decide
/-- V-KS4 and V-KS5: the two index sequences. -/
theorem test_kidx_enc :
    (List.range 32).map (fun r => (kidx .enc r).val) =
      [0, 1, 2, 3, 4, 5, 6, 7, 0, 1, 2, 3, 4, 5, 6, 7, 0, 1, 2, 3, 4, 5, 6, 7] ++
      [7, 6, 5, 4, 3, 2, 1, 0] := by decide
theorem test_kidx_dec :
    (List.range 32).map (fun r => (kidx .dec r).val) =
      [0, 1, 2, 3, 4, 5, 6, 7, 7, 6, 5, 4, 3, 2, 1, 0, 7, 6, 5, 4, 3, 2, 1, 0] ++
      [7, 6, 5, 4, 3, 2, 1, 0] := by decide
/-- V-KS8. -/
theorem test_round_keys :
    roundKey key1 .enc 24 = 0x45464748 ∧ roundKey key1 .dec 8 = 0x45464748 ∧
    roundKey key1 .enc 8 = 0x41424344 := by decide
/-- V-KS9. -/
theorem test_key_order :
    [keyOrder .ecb .enc, keyOrder .ecb .dec, keyOrder .cbc .enc, keyOrder .cbc .dec, keyOrder .cfb .enc,
     keyOrder .cfb .dec, keyOrder .ofb .enc, keyOrder .ofb .dec] =
      [.enc, .dec, .enc, .dec, .enc, .enc, .enc, .enc] := by decide

/-! ## The round function and the engine -/

/-- V-RF1 to V-RF6 and V-RF12. -/
theorem test_round_function :
    roundF hw 0 0 = 0x7598DC9F ∧ roundF hw 0xFFFFFFFF 1 = 0x7598DC9F ∧
    roundF hw 0xFFFFFFFF 0xFFFFFFFF = 0xB337268C ∧ roundF hw 0x01234567 0x89ABCDEF = 0x3B4230D1 ∧
    roundF hw 0x65666768 0x41424344 = 0xDF4B1E32 ∧ roundF hw 0x6F2C2057 0x41424344 = 0x1D00CF91 := by
  decide
/-- V-RF7 to V-RF11. -/
theorem test_round_function_nibbles :
    roundF hw 0x76543210 0 = 0x641344BB ∧ roundF hw 0x00000001 0 = 0x7598DB1F ∧
    roundF hw 0x10000000 0 = 0x7598D49F ∧ roundF hw 0x0000000F 0 = 0x7598DA9F ∧
    roundF hw 0xF0000000 0 = 0x7598A49F := by decide

/-- The identity table of spec/95 section 2.3. -/
def identity : Config := ⟨fun _ v => v, .big⟩

/-- V-RF21 to V-RF27: the wiring alone. -/
theorem test_round_function_identity :
    roundF identity 0x76543210 0 = 0x1A2B3809 ∧ roundF identity 0x00000001 0 = 0x00000080 ∧
    roundF identity 0x10000000 0 = 0x00000800 ∧ roundF identity 0x01234567 0x89ABCDEF = 0x8FE54329 ∧
    roundF identity 0xFFFFFFFF 0xFFFFFFFF = 0xFFFFFF7F ∧ roundF identity 0x0000000F 0 = 0x00000780 ∧
    roundF identity 0xF0000000 0 = 0x00007800 := by decide
/-- The rotator alone (spec/95 section 2.3). -/
theorem test_rotator :
    rotator 0x80000000 = 0x00000400 ∧ rotator 0x00200000 = 1 ∧ rotator 0x00100000 = 0x80000000 ∧
    rotator 0xFFE00000 = 0x000007FF ∧ rotator 0x12345678 = 0xA2B3C091 := by decide
/-- V-FE1, load and round 0. -/
theorem test_engine_first_round :
    (State.load hw hello keyed).b = 0x48656C6C ∧ (State.load hw hello keyed).a = 0x6F2C2057 ∧
    (State.round hw .enc (State.load hw hello keyed)).a = 0x5565A3FD ∧
    (State.round hw .enc (State.load hw hello keyed)).b = 0x6F2C2057 := by decide
/-- V-FE2. -/
theorem test_feistel_inverse : feistel hw key1 .dec helloEcb = hello := by decide
/-- V-FE3: the all-zero key and block. -/
theorem test_feistel_zero :
    feistel hw ⟨0, 0, 0, 0, 0, 0, 0, 0⟩ .enc zeroBlock =
      blk 0x3F 0x33 0x6C 0xE1 0x2A 0x23 0x5F 0x94 := by decide
/-- V-FE4: every bit set. -/
theorem test_feistel_ones :
    feistel hw (keyFileOf (List.replicate 32 0xFF)) .enc
        (blk 0xFF 0xFF 0xFF 0xFF 0xFF 0xFF 0xFF 0xFF) =
      blk 0x02 0xE4 0x57 0x25 0x8E 0x05 0xA0 0xA0 := by decide
/-- V-FE7: decryption of a plaintext. -/
theorem test_feistel_dec :
    feistel hw key1 .dec hello = blk 0x76 0x3E 0x71 0x11 0x63 0x98 0xA1 0xBF := by decide
/-- V-FE8: the identity table. -/
theorem test_feistel_identity :
    feistel identity key1 .enc hello = blk 0x86 0x25 0x64 0x80 0x95 0xF6 0x24 0x90 := by decide

/-! ## Commands, one each -/

/-- V-FT16: LDIV needs no key. -/
theorem test_ldiv_without_key :
    next? (fun t => (t.iv, t.ivv, t.kv, t.err)) (exec (.ldiv (blockBytes iv1)) State.reset) =
      some (iv1, true, false, 0) := by decide

/-- P2, third line: START CBC, ENC seeds `FB`. -/
theorem test_startCbcEnc :
    next? (fun t => (t.fb, t.mode, t.dir, t.sv)) (exec .startCbcEnc ready) =
      some (iv1, .cbc, .enc, true) := by decide
/-- P4: START ECB, ENC with no IV writes no `FB`. -/
theorem test_startEcbEnc :
    next? (fun t => (t.fb, t.mode, t.dir, t.sv, t.err)) (exec .startEcbEnc { keyed with fb := gost }) =
      some (gost, .ecb, .enc, true, 0) := by decide
/-- V-FT24. -/
theorem test_startEcbDec :
    next? (fun t => (t.mode, t.dir, t.sv, t.err)) (exec .startEcbDec keyed) =
      some (.ecb, .dec, true, 0) := by decide
/-- V-MD3, V-MD4, V-MD2: the other STARTs seed `FB` and latch their mode and direction. -/
theorem test_startCfbEnc :
    next? (fun t => (t.fb, t.mode, t.dir)) (exec .startCfbEnc ready) = some (iv1, .cfb, .enc) := by decide
theorem test_startOfbEnc :
    next? (fun t => (t.fb, t.mode, t.dir)) (exec .startOfbEnc ready) = some (iv1, .ofb, .enc) := by decide
theorem test_startCbcDec :
    next? (fun t => (t.fb, t.mode, t.dir)) (exec .startCbcDec (inStream .cbc .enc gost)) =
      some (iv1, .cbc, .dec) := by decide
theorem test_startCfbDec :
    next? (fun t => (t.fb, t.mode, t.dir)) (exec .startCfbDec ready) = some (iv1, .cfb, .dec) := by decide
theorem test_startOfbDec :
    next? (fun t => (t.fb, t.mode, t.dir)) (exec .startOfbDec ready) = some (iv1, .ofb, .dec) := by decide

/-- BLOCK in direction ENC: V-FE1 with the engine's end state, V-MD2, V-MD3, V-MD4. -/
theorem test_block_enc :
    next? (fun t => (t.tx.getLast?, t.a, t.b, t.rnd, t.ph, t.fb))
        (exec (.block (blockBytes hello)) (inStream .ecb .enc iv1)) =
      some (some ⟨0, blockBytes helloEcb⟩, 0x5578D875, 0xCA6E2347, 32, .idle, iv1) ∧
    next? answerAndFb (exec (.block (blockBytes gost)) (inStream .cbc .enc iv1)) =
      some (some ⟨0, [0x29, 0xB4, 0xCF, 0x23, 0x81, 0x84, 0x9D, 0x6A]⟩,
        blk 0x29 0xB4 0xCF 0x23 0x81 0x84 0x9D 0x6A) ∧
    next? answerAndFb (exec (.block (blockBytes gost)) (inStream .cfb .enc iv1)) =
      some (some ⟨0, [0x32, 0x77, 0x32, 0xE2, 0x64, 0x86, 0xB5, 0xEE]⟩,
        blk 0x32 0x77 0x32 0xE2 0x64 0x86 0xB5 0xEE) ∧
    next? answerAndFb (exec (.block (blockBytes gost)) (inStream .ofb .enc iv1)) =
      some (some ⟨0, [0x32, 0x77, 0x32, 0xE2, 0x64, 0x86, 0xB5, 0xEE]⟩,
        blk 0x75 0x38 0x61 0xB6 0x56 0xBE 0x84 0xDA) :=
  ⟨by decide, by decide, by decide, by decide⟩
/-- BLOCK in direction DEC: V-FE2, the second block of V-MD2, the first of V-MD3 (the new `FB` is the
input), the second of V-MD4. -/
theorem test_block_dec :
    next? answerAndFb (exec (.block (blockBytes helloEcb)) (inStream .ecb .dec iv1)) =
      some (some ⟨0, blockBytes hello⟩, iv1) ∧
    next? answerAndFb (exec (.block [0x59, 0xF0, 0xED, 0x60, 0xCB, 0x2C, 0x0C, 0xCF])
        (inStream .cbc .dec (blk 0x29 0xB4 0xCF 0x23 0x81 0x84 0x9D 0x6A))) =
      some (some ⟨0, [0x37, 0x38, 0x39, 0x41, 0x42, 0x43, 0x21, 0x00]⟩,
        blk 0x59 0xF0 0xED 0x60 0xCB 0x2C 0x0C 0xCF) ∧
    next? answerAndFb (exec (.block [0x32, 0x77, 0x32, 0xE2, 0x64, 0x86, 0xB5, 0xEE])
        (inStream .cfb .dec iv1)) =
      some (some ⟨0, blockBytes gost⟩, blk 0x32 0x77 0x32 0xE2 0x64 0x86 0xB5 0xEE) ∧
    next? answerAndFb (exec (.block [0xB5, 0x8C, 0x7A, 0x71, 0xC6, 0xB6, 0x0A, 0xAE])
        (inStream .ofb .dec (blk 0x75 0x38 0x61 0xB6 0x56 0xBE 0x84 0xDA))) =
      some (some ⟨0, [0x37, 0x38, 0x39, 0x41, 0x42, 0x43, 0x21, 0x00]⟩,
        blk 0x82 0xB4 0x43 0x30 0x84 0xF5 0x2B 0xAE) :=
  ⟨by decide, by decide, by decide, by decide⟩

/-! ## Faults, at the port -/

/-- V-FT1 to V-FT5, V-FT7, V-FT8: illegal commands. -/
theorem test_fault_illegal :
    answerTo State.reset 0x00 [] = some (some ⟨1, []⟩, 1) ∧
    answerTo State.reset 0x50 [0] = some (some ⟨1, []⟩, 1) ∧
    answerTo State.reset 0xFF [] = some (some ⟨1, []⟩, 1) ∧
    answerTo State.reset 0x18 key1Bytes = some (some ⟨1, []⟩, 1) ∧
    answerTo State.reset 0x11 key1Bytes = some (some ⟨1, []⟩, 1) ∧
    answerTo State.reset 0x41 (blockBytes iv1) = some (some ⟨1, []⟩, 1) ∧
    answerTo State.reset 0x38 [] = some (some ⟨1, []⟩, 1) := by decide
/-- V-FT9 and V-FT10: an illegal command wins over no key and over a bad length. -/
theorem test_fault_illegal_first :
    answerTo State.reset 0x30 [0] = some (some ⟨1, []⟩, 1) ∧
    answerTo State.reset 0x48 [1, 2, 3, 4, 5] = some (some ⟨1, []⟩, 1) := by decide
/-- V-FT11, V-FT12, V-FT13. -/
theorem test_fault_keyLen :
    answerTo State.reset 0x10 (key1Bytes.take 31) = some (some ⟨2, []⟩, 2) ∧
    answerTo State.reset 0x10 (0 :: key1Bytes) = some (some ⟨2, []⟩, 2) ∧
    answerTo State.reset 0x10 [] = some (some ⟨2, []⟩, 2) := by decide
/-- V-FT14, V-FT15. -/
theorem test_fault_ivLen :
    answerTo State.reset 0x20 [1, 2, 3, 4, 5, 6, 7] = some (some ⟨3, []⟩, 3) ∧
    answerTo State.reset 0x20 [1, 2, 3, 4, 5, 6, 7, 8, 9] = some (some ⟨3, []⟩, 3) := by decide
/-- V-FT17 to V-FT20: length before state, and no key before no stream and no IV. -/
theorem test_fault_order :
    answerTo State.reset 0x40 [0] = some (some ⟨4, []⟩, 4) ∧
    answerTo State.reset 0x40 (blockBytes hello) = some (some ⟨5, []⟩, 5) ∧
    answerTo State.reset 0x31 [] = some (some ⟨5, []⟩, 5) ∧
    answerTo State.reset 0x30 [] = some (some ⟨5, []⟩, 5) := by decide
/-- V-FT21 to V-FT23, V-FT26, V-FT27. -/
theorem test_fault_noIv_noStream :
    answerTo keyed 0x31 [] = some (some ⟨6, []⟩, 6) ∧ answerTo keyed 0x36 [] = some (some ⟨6, []⟩, 6) ∧
    answerTo keyed 0x33 [] = some (some ⟨6, []⟩, 6) ∧
    answerTo keyed 0x40 (blockBytes hello) = some (some ⟨7, []⟩, 7) ∧
    answerTo ready 0x40 (blockBytes hello) = some (some ⟨7, []⟩, 7) := by decide
/-- V-FT29: the core does not pad, and `FB` stays. -/
theorem test_fault_short_block :
    next? (fun t => (t.err, t.fb, t.sv))
        (step (atPort (inStream .cbc .enc iv1) 0x40 [0x48, 0x65, 0x6C, 0x6C, 0x6F])) =
      some (4, iv1, true) := by decide
/-- V-FT32, V-FT33: a faulted core answers everything with the first code. -/
theorem test_fault_sticky :
    answerTo (faultedWith 1) 0x10 key1Bytes = some (some ⟨1, []⟩, 1) ∧
    answerTo (faultedWith 2) 0x77 [1, 2] = some (some ⟨2, []⟩, 2) := by decide
/-- V-FT34: reset leaves the fault. -/
theorem test_reset_leaves_fault :
    next? (fun t => (t.ph, t.err, t.kv, t.tx)) (step (faultedWith 3).assertReset) =
      some (.idle, 0, false, []) := by decide
/-- R213: reset during a block abandons it with no response. -/
theorem test_reset_during_block :
    next? (fun t => (t.ph, t.tx, t.sv))
        (step (State.assertReset { inStream .ecb .enc iv1 with ph := .run hello, rnd := 5 })) =
      some (.idle, [], false) := by decide

/-- V-ST1 to V-ST6: chunk counts, and the last padded chunk of the 13-byte string. -/
theorem test_chunk_counts : [0, 1, 7, 8, 9, 13, 15, 16, 24].map chunkCount = [0, 1, 1, 1, 2, 2, 2, 2, 3] := by
  decide
theorem test_padded_chunk :
    padChunk (chunk [0x48, 0x65, 0x6C, 0x6C, 0x6F, 0x2C, 0x20, 0x57, 0x6F, 0x72, 0x6C, 0x64, 0x21] 1) =
      [0x6F, 0x72, 0x6C, 0x64, 0x21, 0, 0, 0] := by decide

/-- A table word is placed and run: START ECB, ENC on a keyed core. -/
theorem test_withFetchWord_runs :
    decodeTableWord 8 0x30 = some .startEcbEnc ∧
    next? (fun t => (t.sv, t.rx)) (step (keyed.withFetchWord 8 0x30)) = some (true, []) := by decide

/-! ## Witnesses: every hypothesis of every statement is met, clause by clause -/

theorem test_readyFor (m : Mode) : ReadyFor m ready := ⟨rfl, rfl, fun _ => rfl⟩
theorem test_readyFor_ecb_without_iv : ReadyFor .ecb keyed := ⟨rfl, rfl, by decide⟩
theorem test_openIn (m : Mode) (d : Dir) (fb : Block) : OpenIn m d (inStream m d fb) :=
  ⟨rfl, rfl, rfl, rfl, rfl⟩
theorem test_inv_inStream : (inStream .cbc .enc iv1).Inv :=
  ⟨by decide, by decide, by decide, by decide, by decide, by decide⟩
theorem test_inv_faulted : (faultedWith 7).Inv :=
  ⟨by decide, by decide, by decide, by decide, by decide, by decide⟩
theorem test_inv_running :
    State.Inv { inStream .ecb .enc iv1 with ph := .run hello, rnd := 32 } :=
  ⟨by decide, by decide, by decide, by decide, by decide, by decide⟩

/-- O1: the longest payload a frame takes, and a START. -/
theorem test_witness_DecodeOfEncode :
    (Instr.ldkey (List.replicate 255 0)).wellFormed = true ∧ Instr.startOfbDec.wellFormed = true := by
  simp only [Instr.wellFormed, Instr.payload, List.length_replicate]; decide
/-- O2. -/
theorem test_witness_DecodedBytesAreItsFrame : decode [0x30, 0x00, 0x77] = .instr .startEcbEnc [0x77] := by
  decide
/-- O3: an illegal and a legal frame. -/
theorem test_witness_IllegalCommandsExactly :
    State.reset.ph = .idle ∧ State.reset.rst = false ∧ State.reset.err = 0 ∧
    (atPort State.reset 0x30 [0]).rx = rawFrame 0x30 [0] ++ [] ∧
    (atPort State.reset 0x30 []).rx = rawFrame 0x30 [] ++ [] := by decide
/-- O4: each case of the match, and a table with one byte in two rows, which the first clause refuses. -/
theorem test_witness_DecoderAgreesWithTable :
    (findRow 0x38).isNone = true ∧ (findRow 0x37).map (·.payloadLen) = some 0 ∧
    (findRow 0x40).map (·.payloadLen) = some 8 ∧
    ¬([⟨0x10, 0xFF, 32, 0, .ldkey⟩, ⟨0x10, 0xFF, 8, 0, .ldiv⟩] : List OpRow).Pairwise (fun r₁ r₂ =>
      ∀ cmd : Byte, ¬(cmd &&& r₁.mask = r₁.bits ∧ cmd &&& r₂.mask = r₂.bits)) := by
  refine ⟨by decide, by decide, by decide, fun h => ?_⟩
  exact (List.pairwise_cons.1 h).1 ⟨0x10, 0xFF, 8, 0, .ldiv⟩ (by simp) 0x10 ⟨by decide, by decide⟩
/-- O6. -/
theorem test_witness_StepRunsDecodedCommand :
    (atPort keyed 0x30 []).running = false ∧ (atPort keyed 0x30 []).rst = false ∧
    decode (atPort keyed 0x30 []).rx = .instr .startEcbEnc [] := by decide
/-- O7: no byte, one byte, and a frame that lacks its last byte. -/
theorem test_witness_PartialFrameWaits :
    State.reset.running = false ∧ State.reset.rst = false ∧ State.reset.rx.length < 2 ∧
    ([0x40] : List Byte).length < 2 ∧
    (∃ cmd len tl, ([0x40, 8, 1, 2, 3, 4, 5, 6, 7] : List Byte) = cmd :: len :: tl ∧ tl.length < len.toNat) :=
  ⟨by decide, by decide, by decide, by decide, 0x40, 8, [1, 2, 3, 4, 5, 6, 7], rfl, by decide⟩
/-- O8. -/
theorem test_witness_DeliveredFramesRunInOrder :
    (∀ i ∈ [Instr.startEcbEnc, .block (blockBytes hello)], i.wellFormed = true) ∧
    keyed.running = false ∧ keyed.rst = false ∧ keyed.rx = [] := by decide
/-- O9: a BLOCK, and an illegal frame. -/
theorem test_witness_OneResponsePerFrame :
    (atPort (inStream .cbc .enc iv1) 0x40 (blockBytes hello)).Inv ∧
    (atPort (inStream .cbc .enc iv1) 0x40 (blockBytes hello)).running = false ∧
    (atPort (inStream .cbc .enc iv1) 0x40 (blockBytes hello)).rst = false ∧
    (blockBytes hello).length ≤ 255 ∧
    (atPort (inStream .cbc .enc iv1) 0x40 (blockBytes hello)).rx =
      rawFrame 0x40 (blockBytes hello) ++ [] ∧
    (atPort (faultedWith 7) 0xFF []).Inv ∧ (atPort (faultedWith 7) 0xFF []).running = false ∧
    (atPort (faultedWith 7) 0xFF []).rx = rawFrame 0xFF [] ++ [] :=
  ⟨⟨by decide, by decide, by decide, by decide, by decide, by decide⟩, by decide, by decide, by decide,
   by decide, ⟨by decide, by decide, by decide, by decide, by decide, by decide⟩, by decide, by decide⟩
/-- O10 and O12: a state of each phase meets the invariant, and its step answers. -/
theorem test_witness_StepKeepsInvariant :
    (∃ t, step (inStream .cbc .enc iv1) = .next t) ∧ (∃ t, microStep (faultedWith 7) = .next t) ∧
    (∃ t, step { inStream .ecb .enc iv1 with ph := .run hello, rnd := 32 } = .next t) :=
  ⟨⟨_, rfl⟩, ⟨_, rfl⟩, ⟨_, rfl⟩⟩
/-- O13: every clause has a command that writes. -/
theorem test_witness_WhoWritesWhat :
    (inStream .ecb .enc gost).running = false ∧ keyed.running = false ∧
    next? (fun t => decide (t.k = key1)) (exec (.ldkey (List.replicate 32 0)) ready) = some false ∧
    next? (fun t => decide (t.iv = iv1)) (exec (.ldiv (blockBytes gost)) ready) = some false ∧
    next? (fun t => decide (t.fb = gost)) (exec .startEcbEnc (inStream .ecb .enc gost)) = some false ∧
    next? (fun t => decide (t.mode = .ecb ∨ t.dir = .enc)) (exec .startOfbDec ready) = some false ∧
    next? (fun t => (t.kv, t.ivv, t.sv)) (exec (.ldkey key1Bytes) State.reset) = some (true, false, false) ∧
    next? (fun t => (t.ivv, t.sv)) (exec (.ldkey key1Bytes) (inStream .cbc .enc iv1)) =
      some (false, false) ∧
    next? (fun t => t.ivv) (exec (.ldiv (blockBytes iv1)) keyed) = some true ∧
    next? (fun t => t.sv) (exec .startEcbEnc keyed) = some true ∧
    next? (fun t => (t.err, t.ph)) (exec .startCbcEnc keyed) = some (6, .fault) := by decide
/-- O14 and O16. -/
theorem test_witness_LdkeyLoadsKeyWords : ready.ph = .idle ∧ key1Bytes.length = 32 := by decide
theorem test_witness_LdivLoadsIv :
    State.reset.ph = .idle ∧ (blockBytes iv1).length = 8 ∧ keyed.ph = .idle := by decide
/-- O15: each clause. -/
theorem test_witness_LdkeyFrame :
    (0x10 : Byte).toNat / 16 = 1 ∧ (0x1F : Byte).toNat / 16 = 1 ∧ (0x1F : Byte).toNat % 16 ≠ 0 ∧
    (0x10 : Byte).toNat % 16 = 0 ∧ (0 :: key1Bytes).length ≠ 32 ∧ key1Bytes.length = 32 ∧
    (atPort keyed 0x10 key1Bytes).rst = false ∧
    (atPort keyed 0x10 key1Bytes).rx = rawFrame 0x10 key1Bytes ++ [] ∧
    (atPort (faultedWith 1) 0x10 key1Bytes).ph = .fault := by decide
/-- O17: each clause. -/
theorem test_witness_LdivFrame :
    (0x20 : Byte).toNat / 16 = 2 ∧ (0x24 : Byte).toNat / 16 = 2 ∧ (0x24 : Byte).toNat % 16 ≠ 0 ∧
    (0x20 : Byte).toNat % 16 = 0 ∧ ([1, 2, 3, 4, 5, 6, 7] : List Byte).length ≠ 8 ∧
    (atPort keyed 0x20 (blockBytes iv1)).rst = false ∧
    (atPort keyed 0x20 (blockBytes iv1)).rx = rawFrame 0x20 (blockBytes iv1) ++ [] ∧
    (atPort (faultedWith 1) 0x20 []).ph = .fault := by decide
/-- O18. -/
theorem test_witness_LdivInsideStream :
    OpenIn .cfb .enc (inStream .cfb .enc iv1) ∧ (Instr.startCfbEnc, Mode.cfb, Dir.enc) ∈ startForms :=
  ⟨test_openIn _ _ _, by decide⟩
/-- O19: every START, with an IV and, for ECB, without one. -/
theorem test_witness_StartOpensStream :
    startForms.length = 8 ∧ (∀ p ∈ startForms, ReadyFor p.2.1 ready) ∧
    (∀ p ∈ startForms, p.2.1 = .ecb → ReadyFor p.2.1 keyed) :=
  ⟨rfl, fun p _ => test_readyFor p.2.1, fun _ _ h => h ▸ test_readyFor_ecb_without_iv⟩
/-- O20: each clause. -/
theorem test_witness_StartFrame :
    (0x38 : Byte).toNat / 16 = 3 ∧ (0x38 : Byte).toNat / 8 % 2 ≠ 0 ∧ (0x37 : Byte).toNat / 16 = 3 ∧
    (0x37 : Byte).toNat = 0x30 + 4 * (Dir.code .dec).toNat + (Mode.code .ofb).toNat ∧
    (0x30 : Byte).toNat = 0x30 + 4 * (Dir.code .enc).toNat + (Mode.code .ecb).toNat ∧
    State.reset.kv = false ∧ keyed.kv = true ∧ keyed.ivv = false ∧ ready.kv = true ∧ ready.ivv = true ∧
    (atPort ready 0x37 []).ph = .idle ∧ (atPort ready 0x37 []).rst = false ∧
    (atPort ready 0x37 []).rx = rawFrame 0x37 [] ++ [] ∧ (faultedWith 1).ph = .fault := by decide
/-- O21: an open stream with some `FB` and a core on which none was opened. -/
theorem test_witness_StartReseeds :
    (Instr.startCbcEnc, Mode.cbc, Dir.enc) ∈ startForms ∧ ReadyFor .cbc (inStream .ofb .dec gost) ∧
    ReadyFor .cbc ready ∧ (inStream .ofb .dec gost).k = ready.k ∧ ready.ivv = true ∧
    (inStream .ofb .dec gost).ivv = true ∧ (inStream .ofb .dec gost).iv = ready.iv :=
  ⟨by decide, ⟨rfl, rfl, fun _ => rfl⟩, test_readyFor _, rfl, rfl, rfl, rfl⟩
/-- O22 to O25: every row of the mode table can run. -/
theorem test_witness_BlockEcb :
    OpenIn .ecb .enc (inStream .ecb .enc iv1) ∧ OpenIn .ecb .dec (inStream .ecb .dec iv1) :=
  ⟨test_openIn _ _ _, test_openIn _ _ _⟩
theorem test_witness_BlockCbc :
    OpenIn .cbc .enc (inStream .cbc .enc iv1) ∧ OpenIn .cbc .dec (inStream .cbc .dec iv1) :=
  ⟨test_openIn _ _ _, test_openIn _ _ _⟩
theorem test_witness_BlockCfb :
    OpenIn .cfb .enc (inStream .cfb .enc iv1) ∧ OpenIn .cfb .dec (inStream .cfb .dec iv1) :=
  ⟨test_openIn _ _ _, test_openIn _ _ _⟩
theorem test_witness_BlockOfb :
    OpenIn .ofb .enc (inStream .ofb .enc iv1) ∧ OpenIn .ofb .dec (inStream .ofb .dec iv1) :=
  ⟨test_openIn _ _ _, test_openIn _ _ _⟩
/-- O26: each clause. -/
theorem test_witness_BlockFrame :
    (0x40 : Byte).toNat / 16 = 4 ∧ (0x48 : Byte).toNat / 16 = 4 ∧ (0x48 : Byte).toNat % 16 ≠ 0 ∧
    (0x40 : Byte).toNat % 16 = 0 ∧ ([1, 2, 3, 4, 5, 6, 7, 8, 9] : List Byte).length ≠ 8 ∧
    (blockBytes hello).length = 8 ∧ State.reset.kv = false ∧ ready.kv = true ∧ ready.sv = false ∧
    (atPort (inStream .ecb .enc iv1) 0x40 (blockBytes hello)).ph = .idle ∧
    (atPort (inStream .ecb .enc iv1) 0x40 (blockBytes hello)).kv = true ∧
    (atPort (inStream .ecb .enc iv1) 0x40 (blockBytes hello)).sv = true ∧
    (atPort (inStream .ecb .enc iv1) 0x40 (blockBytes hello)).rst = false ∧
    (atPort (inStream .ecb .enc iv1) 0x40 (blockBytes hello)).rx =
      rawFrame 0x40 (blockBytes hello) ++ [] ∧ (faultedWith 1).ph = .fault := by decide
/-- O27: every code is reported for some frame. -/
theorem test_witness_FirstFailingCheckIsReported :
    [reportedCode 0x00 [] keyed, reportedCode 0x10 [] keyed, reportedCode 0x20 [] keyed,
     reportedCode 0x40 [] keyed, reportedCode 0x30 [] State.reset, reportedCode 0x31 [] keyed,
     reportedCode 0x40 (blockBytes hello) keyed, reportedCode 0x30 [] keyed] = [1, 2, 3, 4, 5, 6, 7, 0] ∧
    (atPort keyed 0x31 []).ph = .idle ∧ (atPort keyed 0x31 []).err = 0 ∧
    (atPort keyed 0x31 []).rst = false ∧ (atPort keyed 0x31 []).rx = rawFrame 0x31 [] ++ [] ∧
    (atPort (faultedWith 2) 0x31 []).ph = .fault := by decide
/-- O28: a frame that faults, and no frame. -/
theorem test_witness_FaultEntryWritesNothingElse :
    (atPort keyed 0x31 []).ph = .idle ∧ (atPort keyed 0x31 []).rx = rawFrame 0x31 [] ++ [] ∧
    next? (·.ph) (step (atPort keyed 0x31 [])) = some .fault ∧
    splitFrame keyed.rx = none ∧ next? (·.ph) (step keyed) = some .idle := by decide
/-- O29 and O30. -/
theorem test_witness_FaultedCoreAnswersFirstCode :
    (atPort (faultedWith 2) 0x77 [1, 2]).ph = .fault ∧ (atPort (faultedWith 2) 0x77 [1, 2]).rst = false ∧
    (atPort (faultedWith 2) 0x77 [1, 2]).rx = rawFrame 0x77 [1, 2] ++ [] := by decide
theorem test_witness_FaultIsStickyUntilReset :
    (faultedWith 2).ph = .fault ∧ (faultedWith 2).rst = false ∧
    (faultedWith 2).assertReset.ph = .fault ∧ (faultedWith 2).assertReset.rst = true := by decide
/-- O31: reset asserted on a running core. -/
theorem test_witness_ResetFromAnyState :
    (State.assertReset { inStream .ecb .enc iv1 with ph := .run hello }).rst = true := by decide
/-- O32: two states that differ in every register the guards protect. -/
theorem test_witness_UnspecifiedRegistersUnobservable :
    Indistinguishable State.reset
      { State.reset with k := key1, iv := iv1, fb := gost, mode := .ofb, dir := .dec, a := 1, b := 2, rnd := 3 } ∧
    ∃ t, Host.Core.run Sys2Proof.core 1 State.reset = .next t :=
  ⟨⟨rfl, rfl, rfl, rfl, rfl, rfl, rfl, rfl, by decide, by decide, by decide, by decide, by decide,
    by decide⟩, ⟨_, rfl⟩⟩
/-- O37, O39, O40, O42: the ends of the ranges, and a palindromic key (V-KS11). -/
theorem test_witness_RoundKeySelection :
    (31 : Nat) < 32 ∧
    ∀ j : Fin 8, keyWord ⟨1, 2, 3, 4, 4, 3, 2, 1⟩ j = keyWord ⟨1, 2, 3, 4, 4, 3, 2, 1⟩ j.rev := by decide
theorem test_witness_EngineComputesFeistel : keyed.kv = true := rfl
theorem test_witness_FeistelBijective : Order.enc ≠ .dec := by decide
theorem test_witness_ranges : (31 : Nat) < 32 ∧ (0 : Nat) ≤ 32 ∧ (32 : Nat) ≤ 32 := by decide
/-- O38: two pairs with one sum (V-RF2, V-RF3). -/
theorem test_witness_RoundFunctionByNibbles :
    ((0xFFFFFFFF : Word).toNat + (1 : Word).toNat) % 2 ^ 32 =
      ((0x80000000 : Word).toNat + (0x80000000 : Word).toNat) % 2 ^ 32 := by decide
/-- O44: a BLOCK at the port of an open stream, a frame waiting behind it. -/
theorem test_witness_MicroStepsMakeOneStep :
    OpenIn .ecb .enc { inStream .ecb .enc iv1 with rx := encode (.block (blockBytes hello)) ++ [0x30, 0] } ∧
    (inStream .ecb .enc iv1).rst = false ∧ (1 : Nat) ≤ 33 :=
  ⟨⟨rfl, rfl, rfl, rfl, rfl⟩, rfl, by decide⟩
/-- O45: from the first round to the last. -/
theorem test_witness_HoldLiftsAtRetire :
    (State.issue hw hello (inStream .ecb .enc iv1)).ph = .run hello ∧
    (State.issue hw hello (inStream .ecb .enc iv1)).rst = false ∧ (0 : BitVec 6).toNat ≤ 32 ∧
    (32 : BitVec 6).toNat ≤ 32 := by decide
/-- O56: each case: reset asserted, faulted, running, no key, no stream, a START, an illegal frame, a short
BLOCK. -/
theorem test_witness_MicroStepIsStep :
    (faultedWith 3).assertReset.rst = true ∧ (faultedWith 3).ph ≠ .idle ∧
    (State.issue hw hello (inStream .ecb .enc iv1)).ph ≠ .idle ∧ State.reset.kv = false ∧
    ready.sv = false ∧ decode (rawFrame 0x30 []) = .instr .startEcbEnc [] ∧
    decode (rawFrame 0x38 []) = .illegal .reservedBit [] ∧
    decode (rawFrame 0x40 [1]) = .instr (.block [1]) [] ∧ ∀ x, blockBytes x ≠ [1] := by
  refine ⟨by decide, by decide, by decide, by decide, by decide, by decide, by decide, by decide, ?_⟩
  intro x h
  exact absurd (congrArg List.length h) (by rw [length_blockBytes]; decide)
/-- O46 and O53: two cores with the same key and IV, and two ECB cores whose IVs differ. -/
theorem test_witness_RoundTripEveryMode :
    ReadyFor .cbc ready ∧ ReadyFor .cbc (inStream .ecb .enc gost) ∧ ready.k = (inStream .ecb .enc gost).k ∧
    ready.iv = (inStream .ecb .enc gost).iv ∧ ReadyFor .ecb keyed ∧ keyed.iv ≠ ready.iv :=
  ⟨test_readyFor _, ⟨rfl, rfl, fun _ => rfl⟩, rfl, rfl, test_readyFor_ecb_without_iv, by decide⟩
/-- O47. -/
theorem test_witness_EcbIgnoresIv : keyed.ph = .idle ∧ keyed.kv = true := by decide
/-- O48: V-MD9's two IVs. -/
theorem test_witness_FeedbackSensitivity :
    Mode.cfb ≠ .ecb ∧ iv1 ≠ blk 0xE1 0x62 0x63 0x64 0x65 0x66 0x67 0x68 ∧
    (inStream .cfb .dec iv1).ph = .idle ∧ (inStream .cfb .dec iv1).kv = true ∧
    OpenIn .cfb .dec (inStream .cfb .dec iv1) :=
  ⟨by decide, by decide, rfl, rfl, test_openIn _ _ _⟩
/-- O49, O50 and O52. -/
theorem test_witness_CfbOfbFirstBlock :
    ready.ph = .idle ∧ ready.kv = true ∧ ready.ivv = true := by decide
theorem test_witness_OfbRegisterIterates : ReadyFor .ofb ready := test_readyFor _
/-- O54: the padded last block of V-MD6, zero from byte 5 on. -/
theorem test_witness_ZeroBytesShowKeystream :
    OpenIn .ofb .enc (inStream .ofb .enc iv1) ∧
    (blockBytes (blk 0x6F 0x72 0x6C 0x64 0x21 0 0 0)).drop 5 = List.replicate (8 - 5) 0 :=
  ⟨test_openIn _ _ _, by decide⟩

end Sys2Proof.Tests
end

section
/-!
Proofs for the family 00_scope: a step accepts the first frame at the port (R5, R60), and frames
delivered together run in their order, one a step (R5, R51). The idea of the second: no command reads
or writes the port, so the frames waiting behind it can be left out of its execution.
-/

namespace Sys2Proof.Machine

/-! ## The four forms of a command -/

/-- Case analysis on a command by form, the eight STARTs taken together by mode and direction. Used as
`cases i using instr_forms`. -/
theorem instr_forms {motive : Instr → Prop} (ldkey : ∀ pl, motive (.ldkey pl))
    (ldiv : ∀ pl, motive (.ldiv pl)) (start : ∀ m d, motive (startInstr m d))
    (block : ∀ pl, motive (.block pl)) (i : Instr) : motive i := by
  cases i with
  | ldkey pl => exact ldkey pl
  | ldiv pl => exact ldiv pl
  | startEcbEnc => exact start .ecb .enc
  | startCbcEnc => exact start .cbc .enc
  | startCfbEnc => exact start .cfb .enc
  | startOfbEnc => exact start .ofb .enc
  | startEcbDec => exact start .ecb .dec
  | startCbcDec => exact start .cbc .dec
  | startCfbDec => exact start .cfb .dec
  | startOfbDec => exact start .ofb .dec
  | block pl => exact block pl

@[simp] theorem afterCommand_startInstr (m : Mode) (d : Dir) (s : State) :
    afterCommand (startInstr m d) s = startStream m d s := by
  cases m <;> cases d <;> rfl

/-! ## Decoding the frame of a command -/

/-- The fields of a command byte read back from its packing (R61). -/
theorem cmdFields_packCmd (op : BitVec 4) (dir : BitVec 1) (mode : BitVec 2) :
    cmdOp (packCmd op dir mode) = op ∧ cmdZ (packCmd op dir mode) = 0 ∧
      cmdDir (packCmd op dir mode) = dir ∧ cmdMode (packCmd op dir mode) = mode := by
  revert op dir mode
  decide

/-- The decoder reads a command's own byte and payload back as that command (R61 to R64). -/
theorem decodeFrame_cmdByte (i : Instr) : decodeFrame (cmdByte i) i.payload = .ok i := by
  cases i using instr_forms with
  | ldkey pl => simp [decodeFrame, cmdByte, Instr.payload, cmdFields_packCmd]
  | ldiv pl => simp [decodeFrame, cmdByte, Instr.payload, cmdFields_packCmd]
  | start m d => cases m <;> cases d <;> rfl
  | block pl => simp [decodeFrame, cmdByte, Instr.payload, cmdFields_packCmd]

theorem decode_encode_append {i : Instr} (rest : List Byte) (h : i.wellFormed = true) :
    decode (encode i ++ rest) = .instr i rest := by
  have hl : i.payload.length ≤ 255 := by simpa [Instr.wellFormed] using h
  rw [encode, decode_rawFrame _ _ _ hl, decodeFrame_cmdByte]

/-! ## What a command leaves alone -/

/-- What holds of each of the three outcomes of a command holds of the state it ends in. -/
theorem runCommand_of_outcomes {motive : State → Prop} {cs : List (Option FaultCause)}
    {e : State → State} {s : State} (answer : motive s.answerFaulted)
    (entry : ∀ c, motive (s.faultEntry c)) (effect : motive (e s)) : motive (runCommand cs e s) := by
  obtain ⟨-, h⟩ | ⟨-, c, -, h⟩ | ⟨-, -, h⟩ := runCommand_cases cs e s
  · rw [h]; exact answer
  · rw [h]; exact entry c
  · rw [h]; exact effect

/-- What holds of the answer of a faulted core, of fault entry and of the effect of each form of command
holds of the state that any command ends in. -/
theorem afterCommand_of_outcomes {motive : State → Prop} {s : State} (answer : motive s.answerFaulted)
    (entry : ∀ c, motive (s.faultEntry c)) (ldkey : ∀ k, motive ((s.setKey k).respond 0 []))
    (ldiv : ∀ x, motive ((s.setIv x).respond 0 []))
    (start : ∀ m d, motive ((s.openStream m d).respond 0 []))
    (block : ∀ x, motive (State.retire hw x (State.engine hw (State.issue hw x s)))) (i : Instr) :
    motive (afterCommand i s) := by
  cases i using instr_forms with
  | ldkey pl => rw [afterCommand]; exact runCommand_of_outcomes answer entry (ldkey _)
  | ldiv pl => rw [afterCommand]; exact runCommand_of_outcomes answer entry (ldiv _)
  | start m d =>
    rw [afterCommand_startInstr, startStream]
    exact runCommand_of_outcomes answer entry (start m d)
  | block pl => rw [afterCommand, runBlock]; exact runCommand_of_outcomes answer entry (block _)

@[simp] theorem State.engine_rst (c : Config) (s : State) : (State.engine c s).rst = s.rst := by
  obtain ⟨a, b, r, h⟩ := rounds_writes c (keyOrder s.mode s.dir) 32 s
  rw [State.engine, h, State.setEngine_rst]

/-- No command asserts or takes the reset input. -/
@[simp] theorem afterCommand_rst (i : Instr) (s : State) : (afterCommand i s).rst = s.rst :=
  afterCommand_of_outcomes (motive := fun t => t.rst = s.rst) rfl (fun _ => rfl) (fun _ => rfl)
    (fun _ => rfl) (fun _ _ => rfl)
    (fun _ => by rw [State.retire_rst, State.engine_rst, State.issue_rst]) i

/-- A command runs to completion: it leaves no block running (R5). -/
theorem afterCommand_running (i : Instr) {s : State} (h : s.running = false) :
    (afterCommand i s).running = false :=
  afterCommand_of_outcomes (motive := fun t => t.running = false) h (fun _ => rfl) (fun _ => h)
    (fun _ => h) (fun _ _ => h) (fun _ => rfl) i

/-! ## No command looks at the port -/

/-- A command whose effect does not look at the port does not look at it at all. -/
theorem runCommand_withRx (cs : List (Option FaultCause)) {e : State → State} {s : State}
    {bytes : List Byte} (he : e (s.withRx bytes) = (e s).withRx bytes) :
    runCommand cs e (s.withRx bytes) = (runCommand cs e s).withRx bytes := by
  have hph : (s.withRx bytes).ph = s.ph := State.withRx_ph s bytes
  obtain ⟨hp, h⟩ | ⟨hp, c, hc, h⟩ | ⟨hp, hc, h⟩ := runCommand_cases cs e s
  · rw [h, runCommand_faulted (hph.trans hp)]; rfl
  · rw [h, runCommand_fails (hph.trans_ne hp) hc]; rfl
  · rw [h, runCommand_effect (hph.trans_ne hp) hc, he]

theorem startStream_withRx (m : Mode) (d : Dir) (s : State) (bytes : List Byte) :
    startStream m d (s.withRx bytes) = (startStream m d s).withRx bytes := by
  rw [startStream, startStream]
  exact runCommand_withRx [checkKey s, checkIv m s] rfl

theorem State.issue_withRx (c : Config) (x : Block) (s : State) (bytes : List Byte) :
    State.issue c x (s.withRx bytes) = (State.issue c x s).withRx bytes := rfl

theorem State.engine_withRx (c : Config) (s : State) (bytes : List Byte) :
    State.engine c (s.withRx bytes) = (State.engine c s).withRx bytes :=
  rounds_withRx c (keyOrder s.mode s.dir) bytes 32 s

theorem State.retire_withRx (c : Config) (x : Block) (s : State) (bytes : List Byte) :
    State.retire c x (s.withRx bytes) = (State.retire c x s).withRx bytes := rfl

theorem runBlock_withRx (c : Config) (pl : List Byte) (s : State) (bytes : List Byte) :
    runBlock c pl (s.withRx bytes) = (runBlock c pl s).withRx bytes := by
  rw [runBlock, runBlock]
  refine runCommand_withRx (blockChecks pl s) ?_
  rw [State.issue_withRx, State.engine_withRx, State.retire_withRx]

/-- No command looks at the port: the bytes that wait there are carried through it (R60). -/
theorem afterCommand_withRx (i : Instr) (s : State) (bytes : List Byte) :
    afterCommand i (s.withRx bytes) = (afterCommand i s).withRx bytes := by
  cases i using instr_forms with
  | ldkey pl => rw [afterCommand, afterCommand]; exact runCommand_withRx _ rfl
  | ldiv pl => rw [afterCommand, afterCommand]; exact runCommand_withRx _ rfl
  | start m d => rw [afterCommand_startInstr, afterCommand_startInstr, startStream_withRx]
  | block pl => exact runBlock_withRx hw pl s bytes

/-! ## A step, and a run over frames -/

/-- Settles O6: an accepting core takes the decoded frame off the port and runs its command. -/
theorem stepRunsDecodedCommand : Obligations.StepRunsDecodedCommand := by
  unfold Obligations.StepRunsDecodedCommand
  intro s i rest hp hr hd
  rw [step, fetchStep_accept exec s hr hp, acceptFrame, hd]
  rfl

/-- A step over the frame of a command: the command's effect, the frames behind it still waiting. -/
theorem step_encode_append {s : State} {i : Instr} (rest : List Byte) (hp : s.running = false)
    (hr : s.rst = false) (hi : i.wellFormed = true) :
    step (s.withRx (encode i ++ rest)) = .next ((afterCommand i s).withRx rest) := by
  calc step (s.withRx (encode i ++ rest))
      = exec i (s.withRx rest) :=
        stepRunsDecodedCommand (s.withRx (encode i ++ rest)) i rest hp hr (decode_encode_append rest hi)
    _ = .next (afterCommand i (s.withRx rest)) := exec_eq i _
    _ = .next ((afterCommand i s).withRx rest) := by rw [afterCommand_withRx]

theorem core_run_next {n : Nat} {s t : State} (h : step s = .next t) :
    Host.Core.run Sys2Proof.core (n + 1) s = Host.Core.run Sys2Proof.core n t :=
  run_next h

/-- As many steps as there are command frames at the front of the port execute these commands in order
and leave the bytes behind the frames. -/
theorem run_framesOf (is : List Instr) (rest : List Byte) : ∀ s : State,
    (∀ i ∈ is, i.wellFormed = true) → s.running = false → s.rst = false →
    Host.Core.run Sys2Proof.core is.length (s.withRx (framesOf is ++ rest)) =
      execAll is (s.withRx rest) := by
  induction is with
  | nil => intro s _ _ _; rfl
  | cons i is ih =>
    intro s hwf hp hr
    obtain ⟨hi, his⟩ := List.forall_mem_cons.1 hwf
    have hrx : framesOf (i :: is) ++ rest = encode i ++ (framesOf is ++ rest) := by simp [framesOf]
    rw [hrx, List.length_cons, core_run_next (step_encode_append _ hp hr hi), execAll_cons,
      afterCommand_withRx]
    exact ih (afterCommand i s) his (afterCommand_running i hp) ((afterCommand_rst i s).trans hr)

/-- Settles O8, by induction over the commands: each step takes the first frame, and its command leaves
the frames behind it untouched. -/
theorem deliveredFramesRunInOrder : Obligations.DeliveredFramesRunInOrder := by
  unfold Obligations.DeliveredFramesRunInOrder
  intro is s hwf hp hr hrx
  have hs : s.withRx [] = s := by rw [← hrx]; rfl
  have hd : s.deliver (framesOf is) = s.withRx (framesOf is ++ []) := by
    rw [State.deliver, hrx, List.append_nil]; rfl
  rw [hd, run_framesOf is [] s hwf hp hr, hs]

end Sys2Proof.Machine
end

section
/-!
Proofs for the family 10_state: what the registers hold and who writes them. Everything a command can do
is said once, by `CommandOutcome`; the invariant (R19 to R21) and the access matrix (R27) are read off it.
That registers behind a clear flag are not observed (R26) is a relation between two runs, kept by each
operation of the state.
-/

namespace Sys2Proof.Machine

/-! ## The checks of a command -/

@[simp] theorem checkKeyLen_eq_none (pl : List Byte) : checkKeyLen pl = none ↔ pl.length = 32 := by
  simp [checkKeyLen, failIf]

@[simp] theorem checkIvLen_eq_none (pl : List Byte) : checkIvLen pl = none ↔ pl.length = 8 := by
  simp [checkIvLen, failIf]

@[simp] theorem checkBlkLen_eq_none (pl : List Byte) : checkBlkLen pl = none ↔ pl.length = 8 := by
  simp [checkBlkLen, failIf]

@[simp] theorem checkKey_eq_none (s : State) : checkKey s = none ↔ s.kv = true := by
  simp [checkKey, failIf]

@[simp] theorem checkIv_eq_none (m : Mode) (s : State) :
    checkIv m s = none ↔ (m ≠ .ecb → s.ivv = true) := by
  simp [checkIv, failIf]

@[simp] theorem checkStream_eq_none (s : State) : checkStream s = none ↔ s.sv = true := by
  simp [checkStream, failIf]

/-- A START passes its checks with a key and, in a chaining mode, an IV (R190, R191). -/
theorem startChecks_pass (m : Mode) (s : State) :
    firstFault [checkKey s, checkIv m s] = none ↔ s.kv = true ∧ (m ≠ .ecb → s.ivv = true) := by
  simp [firstFault_none]

/-- A BLOCK passes its checks with eight bytes, a key and an open stream (R188, R190, R192). -/
theorem blockChecks_pass (pl : List Byte) (s : State) :
    firstFault (blockChecks pl s) = none ↔ pl.length = 8 ∧ s.kv = true ∧ s.sv = true := by
  simp [firstFault_none, blockChecks]

/-! ## Everything a command can do -/

/-- The outcomes of a command `i` in a state `s`, each with what its checks have shown. -/
inductive CommandOutcome (i : Instr) (s : State) : State → Prop
  /-- The answer of a faulted core (R195). -/
  | answer (hp : s.ph = .fault) : CommandOutcome i s s.answerFaulted
  /-- A check failed (R193, R194). -/
  | entry (hp : s.ph ≠ .fault) (c : FaultCause) : CommandOutcome i s (s.faultEntry c)
  /-- LDKEY has its effect (R90). -/
  | ldkey (hp : s.ph ≠ .fault) (pl : List Byte) (hi : i = .ldkey pl) (hl : pl.length = 32) :
      CommandOutcome i s ((s.setKey (keyFileOf pl)).respond 0 [])
  /-- LDIV has its effect (R140). -/
  | ldiv (hp : s.ph ≠ .fault) (pl : List Byte) (hi : i = .ldiv pl) (hl : pl.length = 8) :
      CommandOutcome i s ((s.setIv (blockOf pl)).respond 0 [])
  /-- START has its effect (R141). -/
  | start (hp : s.ph ≠ .fault) (m : Mode) (d : Dir) (hi : i = startInstr m d) (hk : s.kv = true)
      (hiv : m ≠ .ecb → s.ivv = true) : CommandOutcome i s ((s.openStream m d).respond 0 [])
  /-- BLOCK has its effect (R142, R153). -/
  | block (hp : s.ph ≠ .fault) (pl : List Byte) (hi : i = .block pl) (hl : pl.length = 8)
      (hk : s.kv = true) (hs : s.sv = true) : CommandOutcome i s
        (State.retire hw (blockOf pl) (State.engine hw (State.issue hw (blockOf pl) s)))

theorem runCommand_outcome {i : Instr} {cs : List (Option FaultCause)} {e : State → State} {s : State}
    (he : s.ph ≠ .fault → firstFault cs = none → CommandOutcome i s (e s)) :
    CommandOutcome i s (runCommand cs e s) := by
  obtain ⟨hp, h⟩ | ⟨hp, c, -, h⟩ | ⟨hp, hc, h⟩ := runCommand_cases cs e s
  · rw [h]; exact .answer hp
  · rw [h]; exact .entry hp c
  · rw [h]; exact he hp hc

theorem afterCommand_outcome (i : Instr) (s : State) : CommandOutcome i s (afterCommand i s) := by
  cases i using instr_forms with
  | ldkey pl =>
    rw [afterCommand]
    exact runCommand_outcome fun hp hc => .ldkey hp pl rfl (by simpa [firstFault_none] using hc)
  | ldiv pl =>
    rw [afterCommand]
    exact runCommand_outcome fun hp hc => .ldiv hp pl rfl (by simpa [firstFault_none] using hc)
  | start m d =>
    rw [afterCommand_startInstr, startStream]
    refine runCommand_outcome fun hp hc => ?_
    obtain ⟨hk, hiv⟩ := (startChecks_pass m s).1 hc
    exact .start hp m d rfl hk hiv
  | block pl =>
    rw [afterCommand, runBlock]
    refine runCommand_outcome fun hp hc => ?_
    obtain ⟨hl, hk, hs⟩ := (blockChecks_pass pl s).1 hc
    exact .block hp pl rfl hl hk hs

theorem exec_outcome {i : Instr} {s t : State} (he : exec i s = .next t) : CommandOutcome i s t := by
  rw [exec_eq] at he
  cases he
  exact afterCommand_outcome i s

/-! ## What a step does first -/

/-- What a step looks at before anything else: the reset input, then the phase (R210, R213). -/
theorem State.turn_cases (s : State) :
    s.rst = true ∨ (s.rst = false ∧ ∃ x, s.ph = .run x) ∨ (s.rst = false ∧ s.running = false) := by
  cases hr : s.rst with
  | true => exact .inl rfl
  | false =>
    cases hp : s.ph with
    | run x => exact .inr (.inl ⟨rfl, x, rfl⟩)
    | idle => exact .inr (.inr ⟨rfl, by simp [State.running, hp]⟩)
    | fault => exact .inr (.inr ⟨rfl, by simp [State.running, hp]⟩)

theorem State.running_of_ph {s : State} {x : Block} (hp : s.ph = .run x) : s.running = true := by
  simp [State.running, hp]

theorem State.ph_eq_idle {s : State} (hr : s.running = false) (hp : s.ph ≠ .fault) : s.ph = .idle := by
  cases h : s.ph with
  | idle => rfl
  | run x => rw [State.running_of_ph h] at hr; cases hr
  | fault => exact absurd h hp

section accept
variable (ex : Instr → State → Host.Outcome State Fault Refusal) {s : State}

theorem acceptFrame_wait (hd : decode s.rx = .wait) : acceptFrame ex s = .next s := by
  rw [acceptFrame, hd]

theorem acceptFrame_illegal {why : Illegal} {rest : List Byte} (hd : decode s.rx = .illegal why rest) :
    acceptFrame ex s = .next (illegalFrame (s.withRx rest)) := by
  rw [acceptFrame, hd]

theorem acceptFrame_instr {i : Instr} {rest : List Byte} (hd : decode s.rx = .instr i rest) :
    acceptFrame ex s = ex i (s.withRx rest) := by
  rw [acceptFrame, hd]

end accept

/-- A micro-step of a command other than BLOCK is its step (R218). -/
theorem microExec_cases (i : Instr) (s : State) :
    (∃ pl, i = .block pl ∧ microExec i s = .next (issueBlock hw pl s)) ∨ microExec i s = exec i s := by
  cases i using instr_forms with
  | ldkey pl => exact .inr rfl
  | ldiv pl => exact .inr rfl
  | start m d => exact .inr (by cases m <;> cases d <;> rfl)
  | block pl => exact .inl ⟨pl, rfl, rfl⟩

/-! ## The invariant, operation by operation -/

theorem faultCode_ne_zero (c : FaultCause) : faultCode c ≠ 0 := by
  cases c <;> decide

theorem faultCode_le (c : FaultCause) : (faultCode c).toNat ≤ 7 := by
  cases c <;> decide

theorem State.reset_inv : State.reset.Inv where
  fault_iff_err := iff_of_false nofun (not_not.2 rfl)
  err_le := Nat.zero_le 7
  rnd_le := Nat.zero_le 32
  stream_has_key := nofun
  chaining_has_iv := nofun
  run_has_stream := nofun

/-- Settles O11: no fault, no open stream and no running block, so each clause of the invariant holds. -/
theorem resetMeetsInvariant : Obligations.ResetMeetsInvariant := by
  unfold Obligations.ResetMeetsInvariant
  exact ⟨State.reset_inv, rfl, rfl, rfl, rfl, rfl⟩

/-- The invariant says nothing of the port, the reset input and the responses given. -/
theorem State.Inv.port {s : State} (h : s.Inv) (rx : List Byte) (rst : Bool) (tx : List Response) :
    State.Inv { s with rx := rx, rst := rst, tx := tx } :=
  { h with }

theorem State.Inv.respond {s : State} (h : s.Inv) (st : Byte) (o : List Byte) : (s.respond st o).Inv :=
  h.port s.rx s.rst _

theorem State.Inv.withRx {s : State} (h : s.Inv) (bytes : List Byte) : (s.withRx bytes).Inv :=
  h.port bytes s.rst s.tx

theorem State.resetEvent_inv (s : State) : s.resetEvent.Inv :=
  State.reset_inv.port _ false s.tx

theorem State.Inv.err_eq_zero {s : State} (h : s.Inv) (hp : s.ph ≠ .fault) : s.err = 0 :=
  not_not.1 fun he => hp (h.fault_iff_err.2 he)

/-- In a phase other than FAULT the fault code stays 0. -/
theorem State.Inv.fault_iff_err_of_ph {s : State} (h : s.Inv) (hp : s.ph ≠ .fault) {p : Phase}
    (hp' : p ≠ .fault) : p = .fault ↔ s.err ≠ 0 := by
  simp [hp', h.err_eq_zero hp]

theorem State.Inv.faultEntry {s : State} (h : s.Inv) (c : FaultCause) : (s.faultEntry c).Inv :=
  { h with
    fault_iff_err := iff_of_true rfl (faultCode_ne_zero c)
    err_le := faultCode_le c
    run_has_stream := nofun }

theorem State.Inv.setKey {s : State} (h : s.Inv) (hr : s.running = false) (k : KeyFile) :
    (s.setKey k).Inv :=
  { h with
    stream_has_key := nofun
    chaining_has_iv := nofun
    run_has_stream := fun hr' => absurd (hr.symm.trans hr') nofun }

theorem State.Inv.setIv {s : State} (h : s.Inv) (x : Block) : (s.setIv x).Inv :=
  { h with chaining_has_iv := fun _ _ => rfl }

theorem State.Inv.openStream {s : State} (h : s.Inv) {m : Mode} (d : Dir) (hk : s.kv = true)
    (hiv : m ≠ .ecb → s.ivv = true) : (s.openStream m d).Inv :=
  { h with
    stream_has_key := fun _ => hk
    chaining_has_iv := fun _ => hiv
    run_has_stream := fun _ => rfl }

theorem State.Inv.issue {s : State} (h : s.Inv) (c : Config) (x : Block) (hp : s.ph ≠ .fault)
    (hs : s.sv = true) : (State.issue c x s).Inv :=
  { h with
    fault_iff_err := h.fault_iff_err_of_ph hp nofun
    rnd_le := Nat.zero_le 32
    run_has_stream := fun _ => hs }

theorem State.Inv.retire {s : State} (h : s.Inv) (c : Config) (x : Block) (hp : s.ph ≠ .fault) :
    (State.retire c x s).Inv :=
  { h with
    fault_iff_err := h.fault_iff_err_of_ph hp nofun
    run_has_stream := nofun }

theorem State.round_rnd_toNat (c : Config) (o : Order) {s : State} (hr : s.rnd.toNat < 32) :
    (State.round c o s).rnd.toNat = s.rnd.toNat + 1 := by
  rw [State.round_rnd]
  bv_omega

theorem State.Inv.round {s : State} (h : s.Inv) (c : Config) (o : Order) (hr : s.rnd.toNat < 32) :
    (State.round c o s).Inv :=
  { h with rnd_le := (State.round_rnd_toNat c o hr).trans_le hr }

/-- A row of ROUNDs that ends at `RND = 32` or before keeps the invariant (R19, R122). -/
theorem State.Inv.rounds (c : Config) (o : Order) : ∀ (n : Nat) {s : State}, s.Inv →
    s.rnd.toNat + n ≤ 32 → (State.rounds c o n s).Inv
  | 0, _, h, _ => h
  | n + 1, s, h, hn => by
    have hr : s.rnd.toNat < 32 := by omega
    refine State.Inv.rounds c o n (h.round c o hr) ?_
    rw [State.round_rnd_toNat c o hr]
    omega

theorem State.engine_writes (c : Config) (s : State) :
    ∃ a b r, State.engine c s = s.setEngine a b r :=
  rounds_writes c (keyOrder s.mode s.dir) 32 s

@[simp] theorem State.engine_ph (c : Config) (s : State) : (State.engine c s).ph = s.ph := by
  obtain ⟨a, b, r, h⟩ := State.engine_writes c s
  rw [h, State.setEngine_ph]

/-- A BLOCK keeps the invariant: ISSUE starts the count at 0, the engine brings it to 32, and RETIRE
leaves a core that is not faulted. -/
theorem State.Inv.block {s : State} (h : s.Inv) (c : Config) (x : Block) (hp : s.ph ≠ .fault)
    (hs : s.sv = true) : (State.retire c x (State.engine c (State.issue c x s))).Inv := by
  have hengine : (State.engine c (State.issue c x s)).Inv :=
    State.Inv.rounds c _ 32 (h.issue c x hp hs) (by simp)
  exact hengine.retire c x (by simp)

/-! ## The invariant along a step -/

theorem State.Inv.illegalFrame {s : State} (h : s.Inv) : (illegalFrame s).Inv :=
  runCommand_of_outcomes (h.respond _ _) h.faultEntry h

theorem State.Inv.outcome {i : Instr} {s t : State} (h : s.Inv) (hr : s.running = false)
    (ho : CommandOutcome i s t) : t.Inv := by
  cases ho with
  | answer hp => exact h.respond _ _
  | entry hp c => exact h.faultEntry c
  | ldkey hp pl hi hl => exact (h.setKey hr _).respond 0 []
  | ldiv hp pl hi hl => exact (h.setIv _).respond 0 []
  | start hp m d hi hk hiv => exact (h.openStream d hk hiv).respond 0 []
  | block hp pl hi hl hk hs => exact h.block hw _ hp hs

theorem State.Inv.issueBlock {s : State} (h : s.Inv) (c : Config) (pl : List Byte) :
    (issueBlock c pl s).Inv := by
  rw [Machine.issueBlock]
  obtain ⟨-, he⟩ | ⟨-, e, -, he⟩ | ⟨hp, hc, he⟩ :=
    runCommand_cases (blockChecks pl s) (fun t => State.issue c (blockOf pl) t) s
  · rw [he]; exact h.respond _ _
  · rw [he]; exact h.faultEntry e
  · obtain ⟨-, -, hs⟩ := (blockChecks_pass pl s).1 hc
    rw [he]
    exact h.issue c _ hp hs

theorem State.Inv.runStep {s t : State} {x : Block} (h : s.Inv) (hp : s.ph = .run x)
    (hst : runStep hw x s = .next t) : t.Inv := by
  obtain ⟨hr, he⟩ | ⟨-, he⟩ | ⟨-, he⟩ := runStep_cases hw x s
  · rw [he] at hst
    cases hst
    exact h.round hw _ hr
  · rw [he] at hst
    cases hst
    exact h.retire hw x (by simp [hp])
  · rw [he] at hst
    cases hst

/-- A step keeps the invariant when the commands it runs do, whatever their granularity. -/
theorem State.Inv.fetchStep {ex : Instr → State → Host.Outcome State Fault Refusal}
    (hex : ∀ i u v, u.Inv → u.running = false → ex i u = .next v → v.Inv) {s t : State} (h : s.Inv)
    (hst : fetchStep ex s = .next t) : t.Inv := by
  obtain hr | ⟨hr, x, hp⟩ | ⟨hr, hp⟩ := s.turn_cases
  · rw [fetchStep_reset ex s hr] at hst
    cases hst
    exact s.resetEvent_inv
  · rw [fetchStep_run ex s x hr hp] at hst
    exact h.runStep hp hst
  · rw [fetchStep_accept ex s hr hp] at hst
    cases hd : decode s.rx with
    | wait =>
      rw [acceptFrame_wait ex hd] at hst
      cases hst
      exact h
    | illegal why rest =>
      rw [acceptFrame_illegal ex hd] at hst
      cases hst
      exact (h.withRx rest).illegalFrame
    | instr i rest =>
      rw [acceptFrame_instr ex hd] at hst
      exact hex i _ t (h.withRx rest) hp hst

theorem State.Inv.exec {i : Instr} {s t : State} (h : s.Inv) (hr : s.running = false)
    (he : exec i s = .next t) : t.Inv :=
  h.outcome hr (exec_outcome he)

theorem State.Inv.microExec {i : Instr} {s t : State} (h : s.Inv) (hr : s.running = false)
    (he : microExec i s = .next t) : t.Inv := by
  obtain ⟨pl, -, hb⟩ | hb := microExec_cases i s
  · rw [hb] at he
    cases he
    exact h.issueBlock hw pl
  · exact h.exec hr (hb ▸ he)

/-- Settles O12: every operation of the state keeps the invariant, so the commands do at either
granularity, and the steps with them. -/
theorem stepKeepsInvariant : Obligations.StepKeepsInvariant := by
  unfold Obligations.StepKeepsInvariant
  rintro s t h (hst | hst)
  · exact h.fetchStep (fun _ _ _ => State.Inv.exec) hst
  · exact h.fetchStep (fun _ _ _ => State.Inv.microExec) hst

/-! ## The access matrix -/

/-- What a BLOCK leaves alone: all but the datapath, the phase, `FB` outside ECB, and the response (R142,
R144). -/
theorem block_writes (c : Config) (x : Block) (s : State) : ∃ a b r fb tx,
    State.retire c x (State.engine c (State.issue c x s)) =
      { s with a := a, b := b, rnd := r, ph := .idle, fb := fb, tx := tx } ∧
    (s.mode = .ecb → fb = s.fb) := by
  obtain ⟨a, b, r, h⟩ := State.engine_writes c (State.issue c x s)
  rw [h]
  exact ⟨a, b, r, _, _, rfl, fun hm => by simp [hm, nextFb]⟩

/-- Settles O13: each outcome of a command writes the registers of its own row of the matrix, and fault
entry, which only an idle core takes, writes `ERR` and `PH`. -/
theorem whoWritesWhat : Obligations.WhoWritesWhat := by
  unfold Obligations.WhoWritesWhat
  intro i s t hr he
  cases exec_outcome he with
  | answer hp => simp
  | entry hp c =>
    have hidle : s.ph = .idle := State.ph_eq_idle hr hp
    simpa using fun _ => ⟨hidle, faultCode_ne_zero c, rfl⟩
  | ldkey hp pl hi hl => simp [hi, hl]
  | ldiv hp pl hi hl => simp [hi, hl]
  | start hp m d hi hk hiv =>
    have hform : (i, m, d) ∈ startForms := (mem_startForms i m d).2 hi
    have hstart : ∃ m d, (i, m, d) ∈ startForms := ⟨m, d, hform⟩
    simpa [hform, hstart] using fun hv _ => .inl hv
  | block hp pl hi hl hk hs =>
    have hidle : s.ph = .idle := State.ph_eq_idle hr hp
    obtain ⟨a, b, r, fb, tx, h, hfb⟩ := block_writes hw (blockOf pl) s
    rw [h]
    simpa [hi, hl, hidle] using fun hne => .inr (mt hfb hne)

/-! ## Two states that differ behind their guards -/

theorem Indistinguishable.refl (s : State) : Indistinguishable s s := by
  constructor <;> simp

/-- The phases agree, so both run a block or neither does. -/
theorem Indistinguishable.running_eq {s t : State} (h : Indistinguishable s t) :
    s.running = t.running := by
  rw [State.running, State.running, h.ph]

theorem Indistinguishable.withRx {s t : State} (h : Indistinguishable s t) (bytes : List Byte) :
    Indistinguishable (s.withRx bytes) (t.withRx bytes) :=
  { h with rx := rfl }

theorem Indistinguishable.respond {s t : State} (h : Indistinguishable s t) (st : Byte)
    (o : List Byte) : Indistinguishable (s.respond st o) (t.respond st o) :=
  { h with tx := congrArg (· ++ _) h.tx }

theorem Indistinguishable.answerFaulted {s t : State} (h : Indistinguishable s t) :
    Indistinguishable s.answerFaulted t.answerFaulted := by
  rw [State.answerFaulted, State.answerFaulted, h.err]
  exact h.respond _ _

theorem Indistinguishable.faultEntry {s t : State} (h : Indistinguishable s t) (c : FaultCause) :
    Indistinguishable (s.faultEntry c) (t.faultEntry c) :=
  { h with
    ph := rfl
    err := rfl
    tx := congrArg (· ++ _) h.tx
    engine := nofun }

/-- Reset leaves nothing of the state but the port and the responses. -/
theorem Indistinguishable.resetEvent {s t : State} (h : Indistinguishable s t) :
    Indistinguishable s.resetEvent t.resetEvent := by
  have heq : s.resetEvent = t.resetEvent := by rw [State.resetEvent, State.resetEvent, h.rx, h.tx]
  rw [heq]
  exact Indistinguishable.refl _

/-- LDKEY puts the same key behind `KV`, and shuts the guards of `IV`, `FB`, `MODE` and `DIR`. -/
theorem Indistinguishable.setKey {s t : State} (h : Indistinguishable s t) (hr : s.running = false)
    (k : KeyFile) : Indistinguishable (s.setKey k) (t.setKey k) :=
  { h with
    kv := rfl
    ivv := rfl
    sv := rfl
    key := fun _ => rfl
    iv := nofun
    mode := nofun
    dir := nofun
    fb := nofun
    engine := fun hr' => absurd (hr.symm.trans hr') nofun }

theorem Indistinguishable.setIv {s t : State} (h : Indistinguishable s t) (x : Block) :
    Indistinguishable (s.setIv x) (t.setIv x) :=
  { h with
    ivv := rfl
    iv := fun _ => rfl }

/-- START seeds `FB` from the loaded IV where the mode reads `FB`; an ECB stream leaves it guarded. -/
theorem Indistinguishable.openStream {s t : State} (h : Indistinguishable s t) (hr : s.running = false)
    {m : Mode} (d : Dir) (hiv : m ≠ .ecb → s.ivv = true) :
    Indistinguishable (s.openStream m d) (t.openStream m d) :=
  { h with
    sv := rfl
    mode := fun _ => rfl
    dir := fun _ => rfl
    fb := fun _ hm => by
      have hv : s.ivv = true := hiv hm
      simp [← h.ivv, hv, h.iv hv]
    engine := fun hr' => absurd (hr.symm.trans hr') nofun }

/-- Writing the same values into the datapath of both. -/
theorem Indistinguishable.setEngine {s t : State} (h : Indistinguishable s t) (a b : Word)
    (r : BitVec 6) : Indistinguishable (s.setEngine a b r) (t.setEngine a b r) := by
  refine { h with engine := fun hr => ?_ }
  obtain ⟨-, -, -, hk, hm, hd, hfb⟩ := h.engine hr
  exact ⟨rfl, rfl, rfl, hk, hm, hd, hfb⟩

theorem Indistinguishable.round {s t : State} (h : Indistinguishable s t) (c : Config) (o : Order)
    (hr : s.running = true) : Indistinguishable (State.round c o s) (State.round c o t) := by
  obtain ⟨ha, hb, hn, hk, -⟩ := h.engine hr
  rw [State.round, State.round, keyRead, keyRead, ha, hb, hn, hk]
  exact h.setEngine _ _ _

/-! ## ECB does not read `FB` -/

theorem feistelInput_congr {m : Mode} (d : Dir) (x : Block) {fb fb' : Block}
    (h : m ≠ .ecb → fb = fb') : feistelInput m d x fb = feistelInput m d x fb' := by
  by_cases hm : m = .ecb
  · subst hm; rfl
  · rw [h hm]

theorem blockOutput_congr {m : Mode} (d : Dir) (x fo : Block) {fb fb' : Block}
    (h : m ≠ .ecb → fb = fb') : blockOutput m d x fo fb = blockOutput m d x fo fb' := by
  by_cases hm : m = .ecb
  · subst hm; rfl
  · rw [h hm]

/-! ## A BLOCK in two states that differ behind their guards -/

/-- ROUNDs from the same datapath registers and key words write the same values. -/
theorem rounds_write_alike (c : Config) (o : Order) : ∀ (n : Nat) {s t : State}, s.a = t.a →
    s.b = t.b → s.rnd = t.rnd → s.k = t.k → ∃ a b r,
      State.rounds c o n s = s.setEngine a b r ∧ State.rounds c o n t = t.setEngine a b r
  | 0, s, t, ha, hb, hr, _ => ⟨s.a, s.b, s.rnd, rfl, by rw [ha, hb, hr]; rfl⟩
  | n + 1, s, t, ha, hb, hr, hk =>
    rounds_write_alike c o n (s := State.round c o s) (t := State.round c o t)
      (by simp [keyRead, ha, hb, hr, hk]) ha (by simp [hr]) hk

/-- What the unload reads is what was last written into the datapath (R123). -/
@[simp] theorem State.unload_setEngine (c : Config) (s : State) (a b : Word) (r : BitVec 6) :
    State.unload c (s.setEngine a b r) = ⟨w2h c.halfOrder a, w2h c.halfOrder b⟩ := rfl

/-- RETIRE over the same datapath values, in the same mode and direction, with the same `FB` where the
mode reads it. -/
theorem Indistinguishable.retire {s t : State} (h : Indistinguishable s t) (c : Config) (x : Block)
    (a b : Word) (r : BitVec 6) (hm : s.mode = t.mode) (hd : s.dir = t.dir)
    (hfb : s.mode ≠ .ecb → s.fb = t.fb) :
    Indistinguishable (State.retire c x (s.setEngine a b r)) (State.retire c x (t.setEngine a b r)) :=
  { h with
    ph := rfl
    tx := by simp [← hm, ← hd, h.tx, blockOutput_congr _ _ _ hfb]
    fb := fun _ hne => by simp [← hm, ← hd, hfb hne]
    engine := nofun }

/-- A BLOCK in an open stream: its guards are open, so both engines run on the same values. -/
theorem Indistinguishable.block {s t : State} (h : Indistinguishable s t) (c : Config) (x : Block)
    (hk : s.kv = true) (hs : s.sv = true) :
    Indistinguishable (State.retire c x (State.engine c (State.issue c x s)))
      (State.retire c x (State.engine c (State.issue c x t))) := by
  have hm : s.mode = t.mode := h.mode hs
  have hd : s.dir = t.dir := h.dir hs
  have hin : feistelInput s.mode s.dir x s.fb = feistelInput t.mode t.dir x t.fb := by
    rw [← hm, ← hd, feistelInput_congr _ _ (h.fb hs)]
  obtain ⟨a, b, r, hes, het⟩ := rounds_write_alike c (keyOrder s.mode s.dir) 32
    (s := State.issue c x s) (t := State.issue c x t) (by simp [hin]) (by simp [hin]) rfl (h.key hk)
  have hes' : State.engine c (State.issue c x s) = (State.issue c x s).setEngine a b r := hes
  have het' : State.engine c (State.issue c x t) = (State.issue c x t).setEngine a b r := by
    rw [State.engine, State.issue_mode, State.issue_dir, ← hm, ← hd]; exact het
  rw [hes', het']
  exact h.retire c x a b r hm hd (h.fb hs)

/-! ## A step of two states that differ behind their guards -/

/-- The same checks, and effects that keep the relation when the checks pass. -/
theorem Indistinguishable.runCommand {s t : State} (h : Indistinguishable s t)
    {cs ds : List (Option FaultCause)} {e : State → State} (hcs : cs = ds)
    (he : firstFault cs = none → Indistinguishable (e s) (e t)) :
    Indistinguishable (runCommand cs e s) (runCommand ds e t) := by
  subst hcs
  obtain ⟨hp, hs⟩ | ⟨hp, c, hc, hs⟩ | ⟨hp, hc, hs⟩ := runCommand_cases cs e s
  · rw [hs, runCommand_faulted (h.ph ▸ hp)]; exact h.answerFaulted
  · rw [hs, runCommand_fails (h.ph ▸ hp) hc]; exact h.faultEntry c
  · rw [hs, runCommand_effect (h.ph ▸ hp) hc]; exact he hc

theorem Indistinguishable.startChecks {s t : State} (h : Indistinguishable s t) (m : Mode) :
    [checkKey s, checkIv m s] = [checkKey t, checkIv m t] := by
  simp only [checkKey, checkIv, h.kv, h.ivv]

theorem Indistinguishable.blockChecks {s t : State} (h : Indistinguishable s t) (pl : List Byte) :
    blockChecks pl s = blockChecks pl t := by
  simp only [Machine.blockChecks, checkKey, checkStream, h.kv, h.sv]

theorem Indistinguishable.afterCommand {s t : State} (h : Indistinguishable s t)
    (hr : s.running = false) (i : Instr) :
    Indistinguishable (afterCommand i s) (afterCommand i t) := by
  cases i using instr_forms with
  | ldkey pl =>
    rw [Machine.afterCommand, Machine.afterCommand]
    exact h.runCommand rfl fun _ => (h.setKey hr _).respond 0 []
  | ldiv pl =>
    rw [Machine.afterCommand, Machine.afterCommand]
    exact h.runCommand rfl fun _ => (h.setIv _).respond 0 []
  | start m d =>
    rw [afterCommand_startInstr, afterCommand_startInstr, startStream, startStream]
    refine h.runCommand (h.startChecks m) fun hc => ?_
    obtain ⟨-, hiv⟩ := (startChecks_pass m s).1 hc
    exact (h.openStream hr d hiv).respond 0 []
  | block pl =>
    rw [Machine.afterCommand, Machine.afterCommand, Machine.runBlock, Machine.runBlock]
    refine h.runCommand (h.blockChecks pl) fun hc => ?_
    obtain ⟨-, hk, hs⟩ := (blockChecks_pass pl s).1 hc
    exact h.block hw _ hk hs

theorem Indistinguishable.illegalFrame {s t : State} (h : Indistinguishable s t) :
    Indistinguishable (illegalFrame s) (illegalFrame t) :=
  h.runCommand rfl fun _ => h

theorem runStep_round {c : Config} {x : Block} {s : State} (h : s.rnd.toNat < 32) :
    runStep c x s = .next (State.round c (keyOrder s.mode s.dir) s) := by
  rw [runStep, if_pos h]

theorem runStep_retire {c : Config} {x : Block} {s : State} (h : s.rnd = 32) :
    runStep c x s = .next (State.retire c x s) := by
  simp [runStep, h]

/-- A running block shows the sequencer the same registers on both sides. -/
theorem Indistinguishable.runStep {s t s' : State} {x : Block} (h : Indistinguishable s t)
    (hp : s.ph = .run x) (hst : runStep hw x s = .next s') :
    ∃ t', runStep hw x t = .next t' ∧ Indistinguishable s' t' := by
  have hr : s.running = true := State.running_of_ph hp
  obtain ⟨ha, hb, hn, -, hm, hd, hfb⟩ := h.engine hr
  obtain ⟨hlt, he⟩ | ⟨heq, he⟩ | ⟨-, he⟩ := runStep_cases hw x s
  · rw [he] at hst
    cases hst
    refine ⟨_, runStep_round (hn ▸ hlt), ?_⟩
    rw [hm, hd]
    exact h.round hw _ hr
  · rw [he] at hst
    cases hst
    refine ⟨_, runStep_retire (hn ▸ heq), ?_⟩
    have hret := h.retire hw x s.a s.b s.rnd hm hd fun _ => hfb
    have ht : t.setEngine s.a s.b s.rnd = t := by rw [ha, hb, hn]; rfl
    rw [ht] at hret
    exact hret
  · rw [he] at hst
    cases hst

theorem Indistinguishable.step {s t s' : State} (h : Indistinguishable s t) (hst : step s = .next s') :
    ∃ t', step t = .next t' ∧ Indistinguishable s' t' := by
  rw [Machine.step] at hst ⊢
  obtain hr | ⟨hr, x, hp⟩ | ⟨hr, hp⟩ := s.turn_cases
  · rw [fetchStep_reset exec s hr] at hst
    cases hst
    exact ⟨_, fetchStep_reset exec t (h.rst ▸ hr), h.resetEvent⟩
  · rw [fetchStep_run exec s x hr hp] at hst
    rw [fetchStep_run exec t x (h.rst ▸ hr) (h.ph ▸ hp)]
    exact h.runStep hp hst
  · rw [fetchStep_accept exec s hr hp] at hst
    rw [fetchStep_accept exec t (h.rst ▸ hr) (h.running_eq ▸ hp)]
    cases hd : decode s.rx with
    | wait =>
      rw [acceptFrame_wait exec hd] at hst
      cases hst
      exact ⟨t, acceptFrame_wait exec (h.rx ▸ hd), h⟩
    | illegal why rest =>
      rw [acceptFrame_illegal exec hd] at hst
      cases hst
      exact ⟨_, acceptFrame_illegal exec (h.rx ▸ hd), (h.withRx rest).illegalFrame⟩
    | instr i rest =>
      rw [acceptFrame_instr exec hd, exec_eq] at hst
      cases hst
      exact ⟨_, (acceptFrame_instr exec (h.rx ▸ hd)).trans (exec_eq i _),
        (h.withRx rest).afterCommand hp i⟩

/-- Settles O32, by induction over the steps. -/
theorem unspecifiedRegistersUnobservable : Obligations.UnspecifiedRegistersUnobservable := by
  unfold Obligations.UnspecifiedRegistersUnobservable
  intro n
  induction n with
  | zero =>
    intro s t s' h hs
    cases hs
    exact ⟨t, rfl, h⟩
  | succ n ih =>
    intro s t s' h hs
    obtain ⟨u, hu, hus⟩ := run_cases hs
    obtain ⟨v, hv, huv⟩ := h.step hu
    obtain ⟨t', ht', h'⟩ := ih u v s' huv hus
    exact ⟨t', (core_run_next hv).trans ht', h'⟩

/-! ## Every byte sequence after reset -/

/-- A step of a state that meets the invariant is no stop when no command stops. -/
theorem State.Inv.exists_next {ex : Instr → State → Host.Outcome State Fault Refusal}
    (hex : ∀ i u, ∃ v, ex i u = .next v) {s : State} (h : s.Inv) :
    ∃ t, Machine.fetchStep ex s = .next t := by
  obtain hr | ⟨hr, x, hp⟩ | ⟨hr, hp⟩ := s.turn_cases
  · exact ⟨_, fetchStep_reset ex s hr⟩
  · rw [fetchStep_run ex s x hr hp]
    obtain ⟨-, he⟩ | ⟨-, he⟩ | ⟨hgt, -⟩ := runStep_cases hw x s
    · exact ⟨_, he⟩
    · exact ⟨_, he⟩
    · exact absurd h.rnd_le (by omega)
  · rw [fetchStep_accept ex s hr hp]
    cases hd : decode s.rx with
    | wait => exact ⟨_, acceptFrame_wait ex hd⟩
    | illegal why rest => exact ⟨_, acceptFrame_illegal ex hd⟩
    | instr i rest => rw [acceptFrame_instr ex hd]; exact hex i _

theorem State.Inv.run_next (n : Nat) : ∀ {s : State}, s.Inv →
    ∃ t, Host.Core.run Sys2Proof.core n s = .next t := by
  induction n with
  | zero => exact fun _ => ⟨_, rfl⟩
  | succ n ih =>
    intro s h
    obtain ⟨u, hu⟩ := h.exists_next fun i u => ⟨_, exec_eq i u⟩
    rw [core_run_next hu]
    exact ih (stepKeepsInvariant s u h (.inl hu))

/-- Reset shuts every guard, so it leaves no register that R26 calls unspecified observable. -/
theorem reset_indistinguishable (bytes : List Byte) (k : KeyFile) (a b : Word) (rnd : BitVec 6)
    (iv fb : Block) (m : Mode) (d : Dir) :
    Indistinguishable (State.reset.deliver bytes) (State.deliver { State.reset with
      k := k, a := a, b := b, rnd := rnd, iv := iv, fb := fb, mode := m, dir := d } bytes) :=
  ⟨rfl, rfl, rfl, rfl, rfl, rfl, rfl, rfl, nofun, nofun, nofun, nofun, nofun, nofun⟩

/-- Settles O33: the two states after reset are indistinguishable, and the first run does not stop. -/
theorem resetContentsUnobservable : Obligations.ResetContentsUnobservable := by
  unfold Obligations.ResetContentsUnobservable
  intro n bytes k a b rnd iv fb m d
  obtain ⟨t, ht⟩ := State.Inv.run_next n (State.reset_inv.port bytes false [])
  obtain ⟨t', ht', h⟩ := unspecifiedRegistersUnobservable n _ _ t
    (reset_indistinguishable bytes k a b rnd iv fb m d) ht
  exact ⟨t, t', ht, ht', h.tx⟩

end Sys2Proof.Machine
end

section
/-!
Proofs for the family 20_memory: the conversions between block halves and words (R45), and the
substitution ROM by linear address (R41, R42). The idea of the first: `LE32` is `BE32` of the bytes in
reverse, so each fact about the little order is the one about the big order.
-/

namespace Sys2Proof.Machine

/-! ## Halves and words -/

/-- Concatenation is positional: the right operand holds the low digits. -/
theorem toNat_append_eq_mul_add {m n : Nat} (x : BitVec m) (y : BitVec n) :
    (x ++ y).toNat = x.toNat * 2 ^ n + y.toNat := by
  rw [BitVec.toNat_append, ← Nat.shiftLeft_add_eq_or_of_lt y.isLt, Nat.shiftLeft_eq]

/-- A bit field is the vector its digits make up. -/
theorem extractLsb'_eq_of_toNat {n m start : Nat} {x : BitVec n} {y : BitVec m}
    (h : x.toNat / 2 ^ start % 2 ^ m = y.toNat) : x.extractLsb' start m = y := by
  apply BitVec.eq_of_toNat_eq
  rw [BitVec.extractLsb'_toNat, Nat.shiftRight_eq_div_pow, h]

theorem toNat_be32 (h : Half) : (be32 h).toNat =
    h.b0.toNat * 2 ^ 24 + h.b1.toNat * 2 ^ 16 + h.b2.toNat * 2 ^ 8 + h.b3.toNat := by
  rw [be32, toNat_append_eq_mul_add, toNat_append_eq_mul_add, toNat_append_eq_mul_add]
  ring

theorem be32inv_be32 (h : Half) : be32inv (be32 h) = h := by
  have hval := toNat_be32 h
  have h0 : (be32 h).extractLsb' 24 8 = h.b0 := extractLsb'_eq_of_toNat (by omega)
  have h1 : (be32 h).extractLsb' 16 8 = h.b1 := extractLsb'_eq_of_toNat (by omega)
  have h2 : (be32 h).extractLsb' 8 8 = h.b2 := extractLsb'_eq_of_toNat (by omega)
  have h3 : (be32 h).extractLsb' 0 8 = h.b3 := extractLsb'_eq_of_toNat (by omega)
  rw [be32inv, h0, h1, h2, h3]

theorem be32_be32inv (w : Word) : be32 (be32inv w) = w := by
  apply BitVec.eq_of_toNat_eq
  simp only [toNat_be32, be32inv, BitVec.extractLsb'_toNat, Nat.shiftRight_eq_div_pow]
  omega

/-- The four bytes in the opposite order. -/
def reverseBytes (h : Half) : Half := ⟨h.b3, h.b2, h.b1, h.b0⟩

theorem le32_eq_be32_reverseBytes (h : Half) : le32 h = be32 (reverseBytes h) := rfl

theorem le32inv_eq_reverseBytes_be32inv (w : Word) : le32inv w = reverseBytes (be32inv w) := rfl

@[simp] theorem reverseBytes_reverseBytes (h : Half) : reverseBytes (reverseBytes h) = h := rfl

@[simp] theorem w2h_h2w (o : HalfOrder) (h : Half) : w2h o (h2w o h) = h := by
  cases o with
  | big => exact be32inv_be32 h
  | little =>
    rw [w2h, h2w, le32inv_eq_reverseBytes_be32inv, le32_eq_be32_reverseBytes, be32inv_be32,
      reverseBytes_reverseBytes]

@[simp] theorem h2w_w2h (o : HalfOrder) (w : Word) : h2w o (w2h o w) = w := by
  cases o with
  | big => exact be32_be32inv w
  | little =>
    rw [w2h, h2w, le32inv_eq_reverseBytes_be32inv, le32_eq_be32_reverseBytes, reverseBytes_reverseBytes,
      be32_be32inv]

/-- Settles O34: the little order is the big order on the reversed bytes. -/
theorem halfWordConversion : Obligations.HalfWordConversion := by
  unfold Obligations.HalfWordConversion
  exact ⟨fun o h w => ⟨w2h_h2w o h, h2w_w2h o w⟩, toNat_be32, fun h => toNat_be32 (reverseBytes h), rfl⟩

/-! ## The ROM by linear address -/

/-- The last location is `16*7 + 15`, so seven bits hold every linear address. -/
theorem toNat_romAddr (i : Fin 8) (v : Nibble) : (romAddr i v).toNat = 16 * i.val + v.toNat := by
  rw [romAddr, BitVec.toNat_ofNat, Nat.mod_eq_of_lt (by omega)]

@[simp] theorem romTable_romAddr (i : Fin 8) (v : Nibble) : romTable (romAddr i v) = i := by
  have haddr := toNat_romAddr i v
  have hfield : (romAddr i v).extractLsb' 4 3 = BitVec.ofFin i :=
    extractLsb'_eq_of_toNat (by change _ = i.val; omega)
  rw [romTable, hfield]

@[simp] theorem romEntry_romAddr (i : Fin 8) (v : Nibble) : romEntry (romAddr i v) = v := by
  have haddr := toNat_romAddr i v
  exact extractLsb'_eq_of_toNat (by omega)

/-- Settles O35: the two fields of `16*i + v` are the table `i` and the entry `v`. -/
theorem romLinearRead : Obligations.RomLinearRead := by
  unfold Obligations.RomLinearRead
  intro c i v
  refine ⟨toNat_romAddr i v, ?_⟩
  rw [romReadLinear, romTable_romAddr, romEntry_romAddr, romRead]

end Sys2Proof.Machine
end

section
/-!
Proofs for the family 30_encoding: the decoder against the frames of the commands (R60 to R64), against
the clauses of R67 and against the opcode table (R68), and the one response of each frame (R66). The idea
of the first three: a frame decodes to a command exactly when it is that command's own byte and payload.
-/

namespace Sys2Proof.Machine

/-! ## The fields of a command byte -/

/-- A command byte with the reserved bit 0 is put together from its fields (R61). -/
theorem packCmd_cmdFields : ∀ cmd : Byte, cmdZ cmd ≠ 1 →
    packCmd (cmdOp cmd) (cmdDir cmd) (cmdMode cmd) = cmd := by
  decide

@[simp] theorem Mode.code_ofCode (c : BitVec 2) : (Mode.ofCode c).code = c := by
  revert c; decide

@[simp] theorem Dir.code_ofCode (c : BitVec 1) : (Dir.ofCode c).code = c := by
  revert c; decide

@[simp] theorem cmdByte_startInstr (m : Mode) (d : Dir) : cmdByte (startInstr m d) = startCmd m d := by
  cases m <;> cases d <;> rfl

@[simp] theorem payload_startInstr (m : Mode) (d : Dir) : (startInstr m d).payload = [] := by
  cases m <;> cases d <;> rfl

theorem toNat_cmdOp (cmd : Byte) : (cmdOp cmd).toNat = cmd.toNat / 16 := by
  rw [cmdOp, BitVec.extractLsb'_toNat, Nat.shiftRight_eq_div_pow]
  omega

theorem toNat_cmdZ (cmd : Byte) : (cmdZ cmd).toNat = cmd.toNat / 8 % 2 := by
  rw [cmdZ, BitVec.extractLsb'_toNat, Nat.shiftRight_eq_div_pow]

theorem toNat_cmdDir (cmd : Byte) : (cmdDir cmd).toNat = cmd.toNat / 4 % 2 := by
  rw [cmdDir, BitVec.extractLsb'_toNat, Nat.shiftRight_eq_div_pow]

theorem toNat_cmdMode (cmd : Byte) : (cmdMode cmd).toNat = cmd.toNat % 4 := by
  rw [cmdMode, BitVec.extractLsb'_toNat, Nat.shiftRight_zero]

/-! ## The four clauses of R67 -/

/-- R67 over the number the command byte is. -/
def IllegalByR67 (cmd : Byte) (pl : List Byte) : Prop :=
  (cmd.toNat / 16 = 0 ∨ 5 ≤ cmd.toNat / 16) ∨ cmd.toNat / 8 % 2 = 1 ∨
    ((cmd.toNat / 16 = 1 ∨ cmd.toNat / 16 = 2 ∨ cmd.toNat / 16 = 4) ∧ cmd.toNat % 8 ≠ 0) ∨
    (cmd.toNat / 16 = 3 ∧ pl.length ≠ 0)

/-- Under a clause of R67 the decoder refuses: each way to a command excludes all four. -/
theorem decodeFrame_error_of_illegal {cmd : Byte} {pl : List Byte} (h : IllegalByR67 cmd pl) :
    ∃ why, decodeFrame cmd pl = .error why := by
  have hop := toNat_cmdOp cmd
  have hbit := toNat_cmdZ cmd
  have hdir := toNat_cmdDir cmd
  have hmode := toNat_cmdMode cmd
  unfold IllegalByR67 at h
  unfold decodeFrame
  split_ifs with hres hz hstart hpl hfields hkey hiv
  · exact ⟨_, rfl⟩
  · exact ⟨_, rfl⟩
  · rw [hpl, List.length_nil] at h
    exfalso; bv_omega
  · exact ⟨_, rfl⟩
  · exact ⟨_, rfl⟩
  · exfalso; bv_omega
  · exfalso; bv_omega
  · exfalso; bv_omega

/-- Under no clause of R67 the frame is that of a command (R62). -/
theorem exists_instr_of_legal {cmd : Byte} {pl : List Byte} (h : ¬ IllegalByR67 cmd pl) :
    ∃ i, cmd = cmdByte i ∧ pl = i.payload := by
  have hop := toNat_cmdOp cmd
  have hbit := toNat_cmdZ cmd
  unfold IllegalByR67 at h
  obtain h1 | h2 | h3 | h4 : cmd.toNat / 16 = 1 ∨ cmd.toNat / 16 = 2 ∨ cmd.toNat / 16 = 3 ∨
    cmd.toNat / 16 = 4 := by omega
  · exact ⟨.ldkey pl, BitVec.eq_of_toNat_eq (by change _ = 0x10; omega), rfl⟩
  · exact ⟨.ldiv pl, BitVec.eq_of_toNat_eq (by change _ = 0x20; omega), rfl⟩
  · have hpl : pl = [] := List.length_eq_zero_iff.1 (by omega)
    have hstart : cmdOp cmd = 3 := by bv_omega
    refine ⟨startInstr (Mode.ofCode (cmdMode cmd)) (Dir.ofCode (cmdDir cmd)), ?_, ?_⟩
    · rw [cmdByte_startInstr, startCmd, Mode.code_ofCode, Dir.code_ofCode, ← hstart,
        packCmd_cmdFields cmd (by bv_omega)]
    · rw [payload_startInstr, hpl]
  · exact ⟨.block pl, BitVec.eq_of_toNat_eq (by change _ = 0x40; omega), rfl⟩

/-- The decoder refuses a frame exactly under the clauses of R67. -/
theorem decodeFrame_error_iff (cmd : Byte) (pl : List Byte) :
    (∃ why, decodeFrame cmd pl = .error why) ↔ IllegalByR67 cmd pl := by
  refine ⟨fun ⟨why, he⟩ => by_contra fun hleg => ?_, decodeFrame_error_of_illegal⟩
  obtain ⟨i, rfl, rfl⟩ := exists_instr_of_legal hleg
  rw [decodeFrame_cmdByte] at he
  cases he

/-! ## The decoder inverts the encoder -/

/-- A frame that decodes to a command is that command's byte and payload (R62, R68). -/
theorem eq_of_decodeFrame_ok {cmd : Byte} {pl : List Byte} {i : Instr}
    (h : decodeFrame cmd pl = .ok i) : cmd = cmdByte i ∧ pl = i.payload := by
  have hleg : ¬ IllegalByR67 cmd pl := by
    rw [← decodeFrame_error_iff, h]
    exact nofun
  obtain ⟨j, rfl, rfl⟩ := exists_instr_of_legal hleg
  rw [decodeFrame_cmdByte] at h
  cases h
  exact ⟨rfl, rfl⟩

/-- What stood at the port when a command was decoded. -/
theorem decode_instr {bytes : List Byte} {i : Instr} {rest : List Byte}
    (h : decode bytes = .instr i rest) : ∃ cmd pl,
      splitFrame bytes = some (cmd, pl, rest) ∧ decodeFrame cmd pl = .ok i := by
  rw [decode] at h
  cases hs : splitFrame bytes with
  | none => rw [hs] at h; cases h
  | some f =>
    obtain ⟨cmd, pl, tl⟩ := f
    simp only [hs] at h
    cases hd : decodeFrame cmd pl with
    | error why => simp only [hd] at h; cases h
    | ok j => simp only [hd] at h; cases h; exact ⟨cmd, pl, rfl, hd⟩

/-- Settles O1: the frame is split off whole, and its command byte and payload are read back. -/
theorem decodeOfEncode : Obligations.DecodeOfEncode := by
  unfold Obligations.DecodeOfEncode
  exact fun i rest h => decode_encode_append rest h

/-- Settles O2: the frame split off is the decoded command's own. -/
theorem decodedBytesAreItsFrame : Obligations.DecodedBytesAreItsFrame := by
  unfold Obligations.DecodedBytesAreItsFrame
  intro bytes i rest h
  obtain ⟨cmd, pl, hs, hd⟩ := decode_instr h
  obtain ⟨hbytes, hl⟩ := splitFrame_some hs
  obtain ⟨rfl, rfl⟩ := eq_of_decodeFrame_ok hd
  exact ⟨hbytes, decide_eq_true hl⟩

/-! ## Only an illegal frame is answered by `ERR_ILLCMD` -/

theorem firstFault_mem {c : FaultCause} : ∀ {cs : List (Option FaultCause)},
    firstFault cs = some c → some c ∈ cs
  | some _ :: _, h => by rw [firstFault] at h; exact h ▸ List.mem_cons_self
  | none :: _, h => List.mem_cons_of_mem _ (firstFault_mem (by rwa [firstFault] at h))

theorem faultCode_injective {c d : FaultCause} (h : faultCode c = faultCode d) : c = d := by
  revert h
  cases c <;> cases d <;> decide

@[simp] theorem some_eq_failIf (b : Bool) (c d : FaultCause) :
    some c = failIf b d ↔ b = true ∧ c = d := by
  cases b <;> simp [failIf]

/-- A command without that check does not record `ERR_ILLCMD`. -/
theorem runCommand_err_ne_illCmd {cs : List (Option FaultCause)} {e : State → State} {s : State}
    (hp : s.ph ≠ .fault) (hcs : some .illCmd ∉ cs) (he : (e s).err ≠ faultCode .illCmd) :
    (runCommand cs e s).err ≠ faultCode .illCmd := by
  obtain ⟨hf, -⟩ | ⟨-, c, hc, h⟩ | ⟨-, -, h⟩ := runCommand_cases cs e s
  · exact absurd hf hp
  · rw [h, State.faultEntry_err]
    intro hcode
    exact hcs (faultCode_injective hcode ▸ firstFault_mem hc)
  · rw [h]; exact he

@[simp] theorem State.engine_err (c : Config) (s : State) : (State.engine c s).err = s.err := by
  obtain ⟨a, b, r, h⟩ := State.engine_writes c s
  rw [h, State.setEngine_err]

/-- None of the checks (3) to (5) of R193 reports an illegal command. -/
theorem afterCommand_err_ne_illCmd {s : State} (hp : s.ph ≠ .fault)
    (he : s.err ≠ faultCode .illCmd) (i : Instr) : (afterCommand i s).err ≠ faultCode .illCmd := by
  cases i using instr_forms with
  | ldkey pl =>
    rw [afterCommand]
    exact runCommand_err_ne_illCmd hp (by simp [checkKeyLen]) he
  | ldiv pl =>
    rw [afterCommand]
    exact runCommand_err_ne_illCmd hp (by simp [checkIvLen]) he
  | start m d =>
    rw [afterCommand_startInstr, startStream]
    exact runCommand_err_ne_illCmd hp (by simp [checkKey, checkIv]) he
  | block pl =>
    rw [afterCommand, runBlock]
    refine runCommand_err_ne_illCmd hp (by simp [blockChecks, checkBlkLen, checkKey, checkStream]) ?_
    rwa [State.retire_err, State.engine_err, State.issue_err]

theorem illegalFrame_of_not_fault {s : State} (hp : s.ph ≠ .fault) :
    illegalFrame s = s.faultEntry .illCmd :=
  runCommand_fails hp rfl

/-! ## A step over a whole frame -/

section frame
variable {s : State} {cmd : Byte} {pl rest : List Byte} (hp : s.running = false) (hr : s.rst = false)
  (hl : pl.length ≤ 255) (hrx : s.rx = rawFrame cmd pl ++ rest)
include hp hr hl hrx

theorem step_illegal_frame {why : Illegal} (hd : decodeFrame cmd pl = .error why) :
    step s = .next (illegalFrame (s.withRx rest)) := by
  have hdec : decode s.rx = .illegal why rest := by rw [hrx, decode_rawFrame _ _ _ hl, hd]
  rw [step, fetchStep_accept exec s hr hp, acceptFrame_illegal exec hdec]

theorem step_command_frame {i : Instr} (hd : decodeFrame cmd pl = .ok i) :
    step s = .next (afterCommand i (s.withRx rest)) := by
  have hdec : decode s.rx = .instr i rest := by rw [hrx, decode_rawFrame _ _ _ hl, hd]
  rw [step, fetchStep_accept exec s hr hp, acceptFrame_instr exec hdec, exec_eq]

end frame

/-- An idle core takes a frame as an illegal command exactly when the decoder refuses it (R67, R189). -/
theorem step_afterFault_illCmd_iff {s : State} {cmd : Byte} {pl rest : List Byte} (hph : s.ph = .idle)
    (hr : s.rst = false) (he : s.err = 0) (hl : pl.length ≤ 255) (hrx : s.rx = rawFrame cmd pl ++ rest) :
    step s = .next (afterFault s rest (faultCode .illCmd)) ↔
      ∃ why, decodeFrame cmd pl = .error why := by
  have hp : s.running = false := by rw [State.running, hph]
  have hnf : s.ph ≠ .fault := by rw [hph]; exact nofun
  cases hd : decodeFrame cmd pl with
  | error why =>
    rw [step_illegal_frame hp hr hl hrx hd, illegalFrame_of_not_fault (s := s.withRx rest) hnf,
      faultEntry_withRx]
    exact iff_of_true rfl ⟨why, rfl⟩
  | ok i =>
    rw [step_command_frame hp hr hl hrx hd]
    refine iff_of_false (fun h => ?_) nofun
    have herr : (s.withRx rest).err ≠ faultCode .illCmd := by rw [State.withRx_err, he]; decide
    injection h with h
    exact afterCommand_err_ne_illCmd (s := s.withRx rest) hnf herr i (by rw [h]; rfl)

/-- The command bytes of the opcode table (R67). -/
def legalBytes : List Byte := [0x10, 0x20, 0x30, 0x31, 0x32, 0x33, 0x34, 0x35, 0x36, 0x37, 0x40]

theorem cmdByte_mem_legalBytes (i : Instr) : cmdByte i ∈ legalBytes := by
  cases i using instr_forms with
  | ldkey pl => rw [cmdByte]; decide
  | ldiv pl => rw [cmdByte]; decide
  | start m d => rw [cmdByte_startInstr]; cases m <;> cases d <;> decide
  | block pl => rw [cmdByte]; decide

theorem decodeFrame_nil_isOk : ∀ cmd ∈ legalBytes, (decodeFrame cmd []).isOk = true := by
  decide

theorem exists_decodeFrame_ok_iff (cmd : Byte) :
    (∃ pl i, decodeFrame cmd pl = .ok i) ↔ cmd ∈ legalBytes := by
  constructor
  · rintro ⟨pl, i, h⟩
    rw [(eq_of_decodeFrame_ok h).1]
    exact cmdByte_mem_legalBytes i
  · intro h
    have hok := decodeFrame_nil_isOk cmd h
    cases hd : decodeFrame cmd [] with
    | error why => rw [hd] at hok; cases hok
    | ok i => exact ⟨[], i, hd⟩

/-- Settles O3: the step is the fault exactly when the decoder refuses the frame, and it refuses exactly
under the clauses. -/
theorem illegalCommandsExactly : Obligations.IllegalCommandsExactly := by
  unfold Obligations.IllegalCommandsExactly
  refine ⟨fun s cmd pl rest hph hr he hl hrx => ?_, exists_decodeFrame_ok_iff⟩
  exact (step_afterFault_illCmd_iff hph hr he hl hrx).trans (decodeFrame_error_iff cmd pl)

/-! ## The opcode table -/

theorem opTable_mask : ∀ row ∈ opTable, row.mask = 0xFF := by
  decide

theorem opTable_bits_pairwise : opTable.Pairwise (fun r₁ r₂ => r₁.bits ≠ r₂.bits) := by
  decide

/-- Every row masks all eight bits, so a row fits the one byte that its `match` is. -/
theorem fits_iff {row : OpRow} (h : row ∈ opTable) (cmd : Byte) :
    cmd &&& row.mask = row.bits ↔ cmd = row.bits := by
  have hmask : cmd &&& row.mask = cmd := by
    rw [opTable_mask row h]
    exact BitVec.and_allOnes
  rw [hmask]

theorem exists_row_of_instr (i : Instr) :
    ∃ row ∈ opTable, row.bits = cmdByte i ∧ row.build i.payload = i := by
  cases i with
  | ldkey pl => exact (Laws.FrameShape.ldkey pl).2.2
  | ldiv pl => exact (Laws.FrameShape.ldiv pl).2.2
  | startEcbEnc => exact Laws.FrameShape.startEcbEnc.2.2
  | startCbcEnc => exact Laws.FrameShape.startCbcEnc.2.2
  | startCfbEnc => exact Laws.FrameShape.startCfbEnc.2.2
  | startOfbEnc => exact Laws.FrameShape.startOfbEnc.2.2
  | startEcbDec => exact Laws.FrameShape.startEcbDec.2.2
  | startCbcDec => exact Laws.FrameShape.startCbcDec.2.2
  | startCfbDec => exact Laws.FrameShape.startCfbDec.2.2
  | startOfbDec => exact Laws.FrameShape.startOfbDec.2.2
  | block pl => exact (Laws.FrameShape.block pl).2.2

theorem findRow_some {cmd : Byte} {row : OpRow} (h : findRow cmd = some row) :
    row ∈ opTable ∧ cmd = row.bits := by
  have hmem : row ∈ opTable := List.mem_of_find?_eq_some h
  have hfit := List.find?_some h
  exact ⟨hmem, (fits_iff hmem cmd).1 (of_decide_eq_true hfit)⟩

/-- Where no row fits, the byte is no command's (R68). -/
theorem cmdByte_ne_of_findRow_none {cmd : Byte} (h : findRow cmd = none) (i : Instr) :
    cmd ≠ cmdByte i := by
  obtain ⟨row, hmem, hbits, -⟩ := exists_row_of_instr i
  intro hcmd
  have hfits := (fits_iff hmem cmd).2 (hcmd.trans hbits.symm)
  exact List.find?_eq_none.1 h row hmem (decide_eq_true hfits)

/-- The decoder reads the row's byte as the row says: its command under every payload, or, where the row
requires none, only without one. -/
def RowDecodes (row : OpRow) : Prop :=
  ∀ pl : List Byte,
    if row.payloadLen = 0 ∧ pl ≠ [] then decodeFrame row.bits pl = .error .startPayload
    else decodeFrame row.bits pl = .ok (row.build pl)

theorem RowDecodes.of_payload {row : OpRow} (hn : row.payloadLen ≠ 0)
    (h : ∀ pl, decodeFrame row.bits pl = .ok (row.build pl)) : RowDecodes row := by
  intro pl
  rw [if_neg fun hpl => hn hpl.1]
  exact h pl

/-- A START refuses a payload (R67). -/
theorem decodeFrame_startCmd (m : Mode) (d : Dir) {pl : List Byte} (h : pl ≠ []) :
    decodeFrame (startCmd m d) pl = .error .startPayload := by
  simp [decodeFrame, startCmd, cmdFields_packCmd, h]

theorem RowDecodes.of_start {row : OpRow} (m : Mode) (d : Dir) (hn : row.payloadLen = 0)
    (hb : row.bits = startCmd m d) (hi : ∀ pl, row.build pl = startInstr m d) : RowDecodes row := by
  intro pl
  rw [hb, hi]
  by_cases hpl : pl = []
  · rw [if_neg fun h => h.2 hpl, hpl]
    simpa using decodeFrame_cmdByte (startInstr m d)
  · rw [if_pos ⟨hn, hpl⟩]
    exact decodeFrame_startCmd m d hpl

theorem opTable_decodes : ∀ row ∈ opTable, RowDecodes row := by
  simp only [opTable, List.cons_append, List.nil_append, List.forall_mem_cons]
  exact ⟨.of_payload nofun fun pl => decodeFrame_cmdByte (.ldkey pl),
    .of_payload nofun fun pl => decodeFrame_cmdByte (.ldiv pl),
    .of_start .ecb .enc rfl rfl fun _ => rfl,
    .of_start .cbc .enc rfl rfl fun _ => rfl,
    .of_start .cfb .enc rfl rfl fun _ => rfl,
    .of_start .ofb .enc rfl rfl fun _ => rfl,
    .of_start .ecb .dec rfl rfl fun _ => rfl,
    .of_start .cbc .dec rfl rfl fun _ => rfl,
    .of_start .cfb .dec rfl rfl fun _ => rfl,
    .of_start .ofb .dec rfl rfl fun _ => rfl,
    .of_payload nofun fun pl => decodeFrame_cmdByte (.block pl),
    nofun⟩

/-- Settles O4: the rows are the eleven command bytes, all different, each decoded as its row says; and a
frame that decodes has the byte of some row. -/
theorem decoderAgreesWithTable : Obligations.DecoderAgreesWithTable := by
  unfold Obligations.DecoderAgreesWithTable
  constructor
  · refine opTable_bits_pairwise.imp_of_mem fun h₁ h₂ hne cmd ⟨hfit₁, hfit₂⟩ => hne ?_
    rw [← (fits_iff h₁ cmd).1 hfit₁, ← (fits_iff h₂ cmd).1 hfit₂]
  · intro cmd pl
    cases hf : findRow cmd with
    | none =>
      cases hd : decodeFrame cmd pl with
      | error why => exact ⟨why, rfl⟩
      | ok i => exact absurd (eq_of_decodeFrame_ok hd).1 (cmdByte_ne_of_findRow_none hf i)
    | some row =>
      obtain ⟨hmem, rfl⟩ := findRow_some hf
      exact opTable_decodes row hmem pl

/-! ## One response for each frame -/

/-- `t` is `s` after it has answered a frame with the command byte `cmd` by one response (R66). -/
def AnsweredOnce (cmd : Byte) (s t : State) : Prop :=
  t.rx = s.rx ∧ ∃ r, t.tx = s.tx ++ [r] ∧ r.status = t.err ∧
    r.out.length = if t.err = 0 ∧ cmd = 0x40 then 8 else 0

/-- A response without output bytes, given when the frame is no BLOCK or faulted. -/
theorem AnsweredOnce.of_empty {cmd : Byte} {s t : State} (hrx : t.rx = s.rx)
    (htx : t.tx = s.tx ++ [⟨t.err, []⟩]) (hn : ¬(t.err = 0 ∧ cmd = 0x40)) : AnsweredOnce cmd s t :=
  ⟨hrx, _, htx, rfl, by rw [if_neg hn]; rfl⟩

/-- The effect of a command other than BLOCK, which writes neither `ERR` nor the port. -/
theorem AnsweredOnce.of_effect {cmd : Byte} {s t : State} (he : s.err = 0) (hcmd : cmd ≠ 0x40)
    (hrx : t.rx = s.rx) (htx : t.tx = s.tx) (herr : t.err = s.err) :
    AnsweredOnce cmd s (t.respond 0 []) :=
  .of_empty hrx (by rw [State.respond_tx, State.respond_err, htx, herr, he]) fun hz => hcmd hz.2

theorem AnsweredOnce.answerFaulted {s : State} (h : s.Inv) (hp : s.ph = .fault) (cmd : Byte) :
    AnsweredOnce cmd s s.answerFaulted :=
  .of_empty rfl rfl fun hz => h.fault_iff_err.1 hp hz.1

theorem AnsweredOnce.faultEntry (s : State) (c : FaultCause) (cmd : Byte) :
    AnsweredOnce cmd s (s.faultEntry c) :=
  .of_empty rfl rfl fun hz => faultCode_ne_zero c hz.1

theorem AnsweredOnce.illegalFrame {s : State} (h : s.Inv) (cmd : Byte) :
    AnsweredOnce cmd s (illegalFrame s) := by
  by_cases hp : s.ph = .fault
  · rw [Machine.illegalFrame, runCommand_faulted hp]
    exact .answerFaulted h hp cmd
  · rw [illegalFrame_of_not_fault hp]
    exact .faultEntry s .illCmd cmd

/-- A BLOCK that does not fault answers with its eight output bytes (R142, R153). -/
theorem AnsweredOnce.block {s : State} (he : s.err = 0) (c : Config) (x : Block) :
    AnsweredOnce 0x40 s (State.retire c x (State.engine c (State.issue c x s))) := by
  obtain ⟨a, b, r, h⟩ := State.engine_writes c (State.issue c x s)
  rw [h]
  exact ⟨rfl, _, rfl, he.symm, by simp [he, length_blockBytes]⟩

theorem startCmd_ne_block (m : Mode) (d : Dir) : startCmd m d ≠ 0x40 := by
  cases m <;> cases d <;> decide

theorem AnsweredOnce.outcome {i : Instr} {s t : State} (h : s.Inv) (ho : CommandOutcome i s t) :
    AnsweredOnce (cmdByte i) s t := by
  cases ho with
  | answer hp => exact .answerFaulted h hp _
  | entry hp c => exact .faultEntry s c _
  | ldkey hp pl hi hl =>
    rw [hi, cmdByte]
    exact .of_effect (h.err_eq_zero hp) (by decide) rfl rfl rfl
  | ldiv hp pl hi hl =>
    rw [hi, cmdByte]
    exact .of_effect (h.err_eq_zero hp) (by decide) rfl rfl rfl
  | start hp m d hi hk hiv =>
    rw [hi, cmdByte_startInstr]
    exact .of_effect (h.err_eq_zero hp) (startCmd_ne_block m d) rfl rfl rfl
  | block hp pl hi hl hk hs =>
    rw [hi, cmdByte]
    exact .block (h.err_eq_zero hp) hw _

/-- Settles O9: every outcome of a frame, legal or not, gives one response. -/
theorem oneResponsePerFrame : Obligations.OneResponsePerFrame := by
  unfold Obligations.OneResponsePerFrame
  intro s cmd pl rest h hp hr hl hrx
  obtain ⟨t, hst, htrx, r, htx, hstat, hlen⟩ :
      ∃ t, step s = .next t ∧ AnsweredOnce cmd (s.withRx rest) t := by
    cases hd : decodeFrame cmd pl with
    | error why =>
      exact ⟨_, step_illegal_frame hp hr hl hrx hd, .illegalFrame (h.withRx rest) cmd⟩
    | ok i =>
      rw [(eq_of_decodeFrame_ok hd).1]
      exact ⟨_, step_command_frame hp hr hl hrx hd,
        .outcome (h.withRx rest) (afterCommand_outcome i _)⟩
  exact ⟨t, r, hst, htrx, htx, hstat, hlen, by rw [← hstat]; rfl⟩

/-! ## Frames written out, and frames not yet whole -/

/-- Settles O5, by running the decoder on the eight frames. -/
theorem sampleFramesDecode : Obligations.SampleFramesDecode := by
  unfold Obligations.SampleFramesDecode
  decide

theorem splitFrame_eq_none_of_short {bytes : List Byte} (h : bytes.length < 2) :
    splitFrame bytes = none := by
  match bytes, h with
  | [], _ => rfl
  | [_], _ => rfl

theorem splitFrame_eq_none_of_partial {cmd len : Byte} {tl : List Byte} (h : tl.length < len.toNat) :
    splitFrame (cmd :: len :: tl) = none := by
  rw [splitFrame, if_neg (Nat.not_le.2 h)]

/-- Settles O7: no whole frame can be split off, so the decoder waits, and the step with it. -/
theorem partialFrameWaits : Obligations.PartialFrameWaits := by
  unfold Obligations.PartialFrameWaits
  intro s hp hr hpart
  have hs : splitFrame s.rx = none := by
    obtain hshort | ⟨cmd, len, tl, hrx, hlt⟩ := hpart
    · exact splitFrame_eq_none_of_short hshort
    · rw [hrx]; exact splitFrame_eq_none_of_partial hlt
  have hd : decode s.rx = .wait := by rw [decode, hs]
  rw [step, fetchStep_accept exec s hr hp, acceptFrame_wait exec hd]

end Sys2Proof.Machine
end

section
/-!
Proofs for the family 41_key_schedule: LDKEY on the state and at the port (R90, R91, R98), and the round
keys (R92 to R97). The idea of the second: the reversed key read at `j` is the key read at `7 - j`, and
the document's decryption pattern is the DEC sequence with every index `j` replaced by `7 - j`, so the two
reversals cancel; a palindromic key does not see either of them.
-/

namespace Sys2Proof.Machine

/-! ## An idle core -/

theorem State.running_of_idle {s : State} (hp : s.ph = .idle) : s.running = false := by
  rw [State.running, hp]

theorem State.ph_ne_fault_of_idle {s : State} (hp : s.ph = .idle) : s.ph ≠ .fault := by
  rw [hp]; exact nofun

/-! ## LDKEY on the state -/

/-- Key word `j` is assembled from payload bytes `4j .. 4j+3` (R91). -/
theorem keyWord_keyFileOf (pl : List Byte) (j : Fin 8) :
    keyWord (keyFileOf pl) j = be32 (plHalf pl (4 * j.val)) := by
  fin_cases j <;> rfl

theorem afterCommand_ldkey_effect {s : State} {pl : List Byte} (hp : s.ph ≠ .fault)
    (hl : pl.length = 32) :
    afterCommand (.ldkey pl) s = (s.setKey (keyFileOf pl)).respond 0 [] := by
  rw [afterCommand]
  exact runCommand_effect hp (by simp [firstFault_none, hl])

theorem afterCommand_ldkey_keyLen {s : State} {pl : List Byte} (hp : s.ph ≠ .fault)
    (hl : pl.length ≠ 32) : afterCommand (.ldkey pl) s = s.faultEntry .keyLen := by
  rw [afterCommand]
  exact runCommand_fails hp (by simp [checkKeyLen, failIf, firstFault, hl])

/-- Settles O14: the length check passes, and `BE32` gives each key word as a number. -/
theorem ldkeyLoadsKeyWords : Obligations.LdkeyLoadsKeyWords := by
  unfold Obligations.LdkeyLoadsKeyWords
  intro s pl hidle hl
  refine ⟨keyFileOf pl, ?_, fun j => ?_⟩
  · rw [exec_eq, afterCommand_ldkey_effect (State.ph_ne_fault_of_idle hidle) hl]
    rfl
  · rw [keyWord_keyFileOf, toNat_be32]
    rfl

/-! ## LDKEY at the port -/

/-- A faulted core answers every command with the first code (R195). -/
theorem afterCommand_faulted {s : State} (hp : s.ph = .fault) (i : Instr) :
    afterCommand i s = s.answerFaulted := by
  cases i using instr_forms with
  | ldkey pl => rw [afterCommand, runCommand_faulted hp]
  | ldiv pl => rw [afterCommand, runCommand_faulted hp]
  | start m d => rw [afterCommand_startInstr, startStream, runCommand_faulted hp]
  | block pl => rw [afterCommand, runBlock, runCommand_faulted hp]

/-- The command byte of LDKEY is `0x10` (R62). -/
theorem decodeFrame_ldkey {cmd : Byte} (hop : cmd.toNat / 16 = 1) (hlow : cmd.toNat % 16 = 0)
    (pl : List Byte) : decodeFrame cmd pl = .ok (.ldkey pl) := by
  have hcmd : cmd = cmdByte (.ldkey pl) := BitVec.eq_of_toNat_eq (by change _ = 0x10; omega)
  rw [hcmd]
  exact decodeFrame_cmdByte (.ldkey pl)

section frame
variable {s : State} {cmd : Byte} {pl rest : List Byte} (hr : s.rst = false)
  (hl : pl.length ≤ 255) (hrx : s.rx = rawFrame cmd pl ++ rest)
include hr hl hrx

/-- A faulted core answers every frame, legal or not, with the first code (R195). -/
theorem step_faulted_frame (hp : s.ph = .fault) : step s = .next (afterAnswer s rest) := by
  have hrun : s.running = false := by rw [State.running, hp]
  have hp' : (s.withRx rest).ph = .fault := hp
  rw [← answerFaulted_withRx]
  cases hd : decodeFrame cmd pl with
  | error why =>
    rw [step_illegal_frame hrun hr hl hrx hd, illegalFrame, runCommand_faulted hp']
  | ok i => rw [step_command_frame hrun hr hl hrx hd, afterCommand_faulted hp']

/-- An idle core takes a frame under a clause of R67 as an illegal command (R189). -/
theorem step_idle_illegal_frame (hp : s.ph = .idle) (hill : IllegalByR67 cmd pl) :
    step s = .next (afterFault s rest 0x01) := by
  have hnf : (s.withRx rest).ph ≠ .fault := State.ph_ne_fault_of_idle hp
  obtain ⟨why, hd⟩ := decodeFrame_error_of_illegal hill
  rw [step_illegal_frame (State.running_of_idle hp) hr hl hrx hd, illegalFrame_of_not_fault hnf,
    faultEntry_withRx, faultCode]

theorem step_idle_ldkey_frame (hp : s.ph = .idle) (hop : cmd.toNat / 16 = 1)
    (hlow : cmd.toNat % 16 = 0) : step s = .next (afterCommand (.ldkey pl) (s.withRx rest)) :=
  step_command_frame (State.running_of_idle hp) hr hl hrx (decodeFrame_ldkey hop hlow pl)

end frame

/-- Settles O15, case by case in the order of the pseudocode. -/
theorem ldkeyFrame : Obligations.LdkeyFrame := by
  unfold Obligations.LdkeyFrame
  intro s cmd pl rest hr hop hl hrx
  have hnf (hidle : s.ph = .idle) : (s.withRx rest).ph ≠ .fault := State.ph_ne_fault_of_idle hidle
  refine ⟨step_faulted_frame hr hl hrx, fun hidle hlow => ?_, fun hidle hlow hlen => ?_,
    fun hidle hlow hlen => ?_⟩
  · have hill : IllegalByR67 cmd pl := by unfold IllegalByR67; omega
    exact step_idle_illegal_frame hr hl hrx hidle hill
  · rw [step_idle_ldkey_frame hr hl hrx hidle hop hlow, afterCommand_ldkey_keyLen (hnf hidle) hlen,
      faultEntry_withRx, faultCode]
  · rw [step_idle_ldkey_frame hr hl hrx hidle hop hlow, afterCommand_ldkey_effect (hnf hidle) hlen]
    rfl

/-! ## The index sequences -/

theorem val_kidx_enc (r : Nat) : (kidx .enc r).val = if r < 24 then r % 8 else 7 - r % 8 := by
  rw [kidx, apply_ite Fin.val, ascending, descending]

theorem val_kidx_dec (r : Nat) : (kidx .dec r).val = if r < 8 then r % 8 else 7 - r % 8 := by
  rw [kidx, apply_ite Fin.val, ascending, descending]

/-- The DEC sequence is the ENC sequence read backwards (R93). -/
theorem kidx_dec_eq_kidx_enc {r : Nat} (hr : r < 32) : kidx .dec r = kidx .enc (31 - r) := by
  apply Fin.ext
  rw [val_kidx_enc, val_kidx_dec]
  split_ifs <;> omega

/-- Settles O55: the two sequences as numbers, compared pass by pass. -/
theorem roundKeyIndices : Obligations.RoundKeyIndices := by
  unfold Obligations.RoundKeyIndices
  exact fun r => ⟨val_kidx_enc r, val_kidx_dec r, kidx_dec_eq_kidx_enc r.isLt⟩

/-! ## The source's selector -/

@[simp] theorem rev_ascending (r : Nat) : (ascending r).rev = descending r := by
  apply Fin.ext
  simp only [Fin.val_rev, ascending, descending]
  omega

@[simp] theorem rev_descending (r : Nat) : (descending r).rev = ascending r := by
  rw [← rev_ascending, Fin.rev_rev]

/-- The reversed key read at `j` is the key read at `7 - j` (R24). -/
@[simp] theorem keyWord_reversedKey (k : KeyFile) (j : Fin 8) :
    keyWord (reversedKey k) j = keyWord k j.rev := by
  fin_cases j <;> rfl

theorem docPattern_true (r : Nat) : docPattern true r = kidx .enc r := rfl

/-- The document's decryption pattern is the DEC sequence of the reversed key (R94). -/
theorem docPattern_false (r : Nat) : docPattern false r = (kidx .dec r).rev := by
  rw [kidx, apply_ite Fin.rev, rev_ascending, rev_descending]
  rfl

/-- In each round the two orders take the same word or mirrored words: the same in the first pass and in
the last, mirrored in the two between (R92, R93). -/
theorem kidx_enc_eq_or_eq_rev (r : Nat) :
    kidx .enc r = kidx .dec r ∨ kidx .enc r = (kidx .dec r).rev := by
  rw [kidx, kidx]
  split_ifs
  · exact .inl rfl
  · exact .inr (rev_descending r).symm
  · omega
  · exact .inl rfl

/-- A word-palindromic key has one sequence of round keys under both orders (R97). -/
theorem roundKey_enc_eq_dec {k : KeyFile} (hk : ∀ j : Fin 8, keyWord k j = keyWord k j.rev) (r : Nat) :
    roundKey k .enc r = roundKey k .dec r := by
  rw [roundKey, roundKey]
  obtain h | h := kidx_enc_eq_or_eq_rev r
  · rw [h]
  · rw [h, ← hk]

theorem keyWord_rev_of_reversedKey_eq {k : KeyFile} (h : reversedKey k = k) (j : Fin 8) :
    keyWord k j = keyWord k j.rev := by
  rw [← keyWord_reversedKey, h]

/-- The key steered by order is the one the source's selector reaches (R95, R97): where the reversed key
differs from the key, its index reversal undoes the pattern's; where it does not, the key is palindromic. -/
theorem roundKey_eq_sourceRoundKey (k : KeyFile) (o : Order) (r : Nat) :
    roundKey k o r = sourceRoundKey k o r := by
  cases o with
  | enc => simp [sourceRoundKey, roundKey, docPattern_true]
  | dec =>
    by_cases h : reversedKey k = k
    · calc roundKey k .dec r
          = roundKey k .enc r := (roundKey_enc_eq_dec (keyWord_rev_of_reversedKey_eq h) r).symm
        _ = sourceRoundKey k .dec r := by simp [sourceRoundKey, roundKey, docPattern_true, h]
    · simp [sourceRoundKey, roundKey, docPattern_false, h]

/-- Settles O39, from the index sequences and the selector's two cases. -/
theorem roundKeySelection : Obligations.RoundKeySelection := by
  unfold Obligations.RoundKeySelection
  refine fun k r hr => ⟨fun o => roundKey_eq_sourceRoundKey k o r, ?_, fun hk => roundKey_enc_eq_dec hk r⟩
  rw [roundKey, roundKey, kidx_dec_eq_kidx_enc hr]

end Sys2Proof.Machine
end

section
/-!
Proofs for the family 42_round_function: the reassembly (R108), the rotator (R109) and their composition
with the adder and the S-box multiplexer (R110). The idea: the reassembled word is a number in base 16
whose digits are the substituted nibbles, and the rotator loses no bit, so rotating back gives that number.
-/

namespace Sys2Proof.Machine

/-! ## The reassembly -/

theorem toNat_reassemble (t : Fin 8 → Nibble) : (reassemble t).toNat =
    (t 0).toNat * 2 ^ 28 + (t 1).toNat * 2 ^ 24 + (t 2).toNat * 2 ^ 20 + (t 3).toNat * 2 ^ 16 +
      (t 4).toNat * 2 ^ 12 + (t 5).toNat * 2 ^ 8 + (t 6).toNat * 2 ^ 4 + (t 7).toNat := by
  simp only [reassemble, toNat_append_eq_mul_add]
  ring

/-- The nibbles after `t i` sum to less than one unit of position `7 - i`, those before it to a multiple
of sixteen such units, so the digit there is `t i`. -/
@[simp] theorem nib_rev_reassemble (t : Fin 8 → Nibble) (i : Fin 8) : nib (reassemble t) i.rev = t i := by
  apply extractLsb'_eq_of_toNat
  rw [toNat_reassemble]
  fin_cases i <;> simp <;> omega

/-- Settles O36: the nibbles are the base-16 digits of the reassembled word. -/
theorem reassemblyReversesNibbles : Obligations.ReassemblyReversesNibbles := by
  unfold Obligations.ReassemblyReversesNibbles
  exact fun t => ⟨toNat_reassemble t, nib_rev_reassemble t⟩

/-! ## The rotator -/

/-- The eleven bits from 21 on wrap around; the others move up without wrapping (R109). -/
theorem getLsbD_rotator (u : Word) {j : Nat} (hj : j < 32) :
    (rotator u).getLsbD ((j + 11) % 32) = u.getLsbD j := by
  rw [rotator, BitVec.getLsbD_rotateLeft_of_le (by decide)]
  by_cases hwrap : j < 21
  · have htop : j + 11 < 32 := by omega
    simp [Nat.mod_eq_of_lt htop, htop]
  · have hpos : (j + 11) % 32 = j - 21 := by omega
    have hlow : j - 21 < 11 := by omega
    have hback : 21 + (j - 21) = j := by omega
    simp [hpos, hlow, hback]

/-- Settles O37, wrapped and unwrapped bits apart. -/
theorem rotatorMovesBits : Obligations.RotatorMovesBits := by
  unfold Obligations.RotatorMovesBits
  exact fun u _ hj => getLsbD_rotator u hj

/-- Rotating right by 11 takes bit `j` from where the rotator put it. -/
theorem getLsbD_rotateRight_eleven (v : Word) {j : Nat} (hj : j < 32) :
    (v.rotateRight 11).getLsbD j = v.getLsbD ((j + 11) % 32) := by
  rw [BitVec.getLsbD_rotateRight_of_lt (by decide)]
  by_cases hwrap : j < 21
  · have hpos : (j + 11) % 32 = 11 + j := by omega
    simp [hpos, hwrap]
  · have hpos : (j + 11) % 32 = j - 21 := by omega
    simp [hpos, hwrap, hj]

@[simp] theorem rotateRight_rotator (u : Word) : (rotator u).rotateRight 11 = u := by
  apply BitVec.eq_of_getLsbD_eq
  intro j hj
  rw [getLsbD_rotateRight_eleven _ hj, getLsbD_rotator u hj]

/-! ## The round function -/

theorem toNat_adder (half subkey : Word) :
    (adder half subkey).toNat = (half.toNat + subkey.toNat) % 2 ^ 32 := by
  rw [adder, BitVec.toNat_add]

/-- Nibble `i` is the base-16 digit of weight `16 ^ i` (R46). -/
theorem nib_eq_ofNat (v : Word) (i : Fin 8) : nib v i = BitVec.ofNat 4 (v.toNat / 16 ^ i.val) := by
  apply extractLsb'_eq_of_toNat
  rw [BitVec.toNat_ofNat, pow_mul, show 2 ^ 4 = 16 from rfl]

/-- Substituted nibble `i` stands at position `7 - i` of the word before the rotator (R110). -/
theorem nib_rotateRight_roundF (c : Config) (half subkey : Word) (i : Fin 8) :
    nib ((roundF c half subkey).rotateRight 11) i.rev = substitute c (adder half subkey) i := by
  rw [roundF, rotateRight_rotator, nib_rev_reassemble]

/-- Of its two inputs the round function uses the sum only (R110). -/
theorem roundF_eq_of_adder_eq (c : Config) {half subkey half' subkey' : Word}
    (h : adder half subkey = adder half' subkey') : roundF c half subkey = roundF c half' subkey' := by
  rw [roundF, roundF, h]

/-- Settles O38, from the nibbles before the rotator and the value of the adder. -/
theorem roundFunctionByNibbles : Obligations.RoundFunctionByNibbles := by
  unfold Obligations.RoundFunctionByNibbles
  intro c half subkey
  refine ⟨fun i => ?_, fun half' subkey' hsum => ?_⟩
  · rw [nib_rotateRight_roundF, substitute, romRead, nib_eq_ofNat, toNat_adder]
  · apply roundF_eq_of_adder_eq
    apply BitVec.eq_of_toNat_eq
    rw [toNat_adder, toNat_adder, hsum]

end Sys2Proof.Machine
end

section
/-!
Proofs for the family 43_feistel_engine: the inverse property (R125, R127), and the engine's registers
against the block function (R120 to R124). The idea of the first: a round undoes itself on swapped halves,
and unload followed by load swaps them, so the rounds of two invocations cancel in pairs from the middle
outwards, whatever the round function is. The keys of a pair are the same because each order is the other
one read backwards.
-/

namespace Sys2Proof.Machine

/-! ## Rounds on the halves `(A, B)` -/

/-- ROUND on the halves alone (R121). -/
def feistelRound (c : Config) (k : Word) (ab : Word × Word) : Word × Word :=
  (ab.2 ^^^ roundF c ab.1 k, ab.1)

theorem feistelRounds_succ (c : Config) (ks : Nat → Word) (n r : Nat) (ab : Word × Word) :
    feistelRounds c ks (n + 1) r ab = feistelRounds c ks n (r + 1) (feistelRound c (ks r) ab) := rfl

/-- The same rounds with the last one split off. -/
theorem feistelRounds_succ_last (c : Config) (ks : Nat → Word) (n r : Nat) (ab : Word × Word) :
    feistelRounds c ks (n + 1) r ab = feistelRound c (ks (r + n)) (feistelRounds c ks n r ab) := by
  induction n generalizing r ab with
  | zero => rfl
  | succ n ih =>
    rw [feistelRounds_succ, ih, feistelRounds_succ, Nat.add_right_comm, Nat.add_assoc]

theorem feistelRound_swap_feistelRound (c : Config) (k : Word) (ab : Word × Word) :
    feistelRound c k (feistelRound c k ab).swap = ab.swap := by
  simp [feistelRound, Prod.swap]

/-- Rounds under the reversed keys undo rounds on swapped halves (the claim in the proof of R125). All but
the first round and the last undoing one cancel by induction, and these two have the same key. -/
theorem feistelRounds_swap_feistelRounds (c : Config) {ks ks' : Nat → Word} (n : Nat) {r r' : Nat}
    (ab : Word × Word) (hks : ∀ i j, i + j + 1 = n → ks' (r' + i) = ks (r + j)) :
    feistelRounds c ks' n r' (feistelRounds c ks n r ab).swap = ab.swap := by
  induction n generalizing r ab with
  | zero => rfl
  | succ n ih =>
    have hinner : ∀ i j, i + j + 1 = n → ks' (r' + i) = ks (r + 1 + j) := fun i j hij => by
      rw [hks i (j + 1) (by omega), Nat.add_assoc, Nat.add_comm 1]
    rw [feistelRounds_succ c ks, feistelRounds_succ_last c ks', ih _ hinner, hks n 0 rfl, Nat.add_zero,
      feistelRound_swap_feistelRound]

/-! ## Blocks and halves -/

/-- The halves `(A, B)` a block is split into (R120). -/
def splitBlock (c : Config) (x : Block) : Word × Word :=
  (h2w c.halfOrder x.last, h2w c.halfOrder x.first)

/-- The block assembled from the halves `(A, B)` (R123). -/
def assembleBlock (c : Config) (ab : Word × Word) : Block :=
  ⟨w2h c.halfOrder ab.1, w2h c.halfOrder ab.2⟩

theorem feistelWith_eq (c : Config) (ks : Nat → Word) (x : Block) :
    feistelWith c ks x = assembleBlock c (feistelRounds c ks 32 0 (splitBlock c x)) := rfl

theorem State.load_halves (c : Config) (x : Block) (s : State) :
    ((State.load c x s).a, (State.load c x s).b) = splitBlock c x := rfl

theorem State.unload_eq_assembleBlock (c : Config) (s : State) :
    State.unload c s = assembleBlock c (s.a, s.b) := rfl

/-- The halves leave in the opposite association from the one they enter in (R123). -/
@[simp] theorem splitBlock_assembleBlock (c : Config) (ab : Word × Word) :
    splitBlock c (assembleBlock c ab) = ab.swap := by
  simp [splitBlock, assembleBlock, Prod.swap]

@[simp] theorem assembleBlock_swap_splitBlock (c : Config) (x : Block) :
    assembleBlock c (splitBlock c x).swap = x := by
  simp [splitBlock, assembleBlock]

/-! ## The inverse property -/

/-- The block function is undone by the block function under the reversed key sequence, whatever the keys
are. -/
theorem feistelWith_feistelWith (c : Config) {ks ks' : Nat → Word}
    (hks : ∀ r < 32, ks' r = ks (31 - r)) (x : Block) : feistelWith c ks' (feistelWith c ks x) = x := by
  have hrounds : feistelRounds c ks' 32 0 (feistelRounds c ks 32 0 (splitBlock c x)).swap =
      (splitBlock c x).swap := by
    refine feistelRounds_swap_feistelRounds c 32 _ fun i j hij => ?_
    rw [Nat.zero_add, Nat.zero_add, hks i (by omega), show 31 - i = j by omega]
  rw [feistelWith_eq, feistelWith_eq, splitBlock_assembleBlock, hrounds, assembleBlock_swap_splitBlock]

/-- Each order is the other one read backwards (R93). -/
theorem roundKey_eq_of_ne (k : KeyFile) {o o' : Order} (h : o ≠ o') {r : Nat} (hr : r < 32) :
    roundKey k o' r = roundKey k o (31 - r) := by
  rw [roundKey, roundKey]
  cases o <;> cases o'
  case enc.enc => exact absurd rfl h
  case enc.dec => rw [kidx_dec_eq_kidx_enc hr]
  case dec.enc => rw [kidx_dec_eq_kidx_enc (by omega), show 31 - (31 - r) = r by omega]
  case dec.dec => exact absurd rfl h

theorem feistel_feistel_of_ne (c : Config) (k : KeyFile) {o o' : Order} (h : o ≠ o') (x : Block) :
    feistel c k o' (feistel c k o x) = x :=
  feistelWith_feistelWith c (fun _ hr => roundKey_eq_of_ne k h hr) x

/-- Settles O41: the cancelling of two different orders, taken both ways round. -/
theorem feistelInverse : Obligations.FeistelInverse := by
  unfold Obligations.FeistelInverse
  intro c k x
  have hne : Order.enc ≠ Order.dec := nofun
  exact ⟨feistel_feistel_of_ne c k hne x, feistel_feistel_of_ne c k hne.symm x⟩

/-- Settles O42: a function with an inverse on both sides is a bijection. -/
theorem feistelBijective : Obligations.FeistelBijective := by
  unfold Obligations.FeistelBijective
  intro c k o o' h
  have hleft : Function.LeftInverse (feistel c k o') (feistel c k o) := feistel_feistel_of_ne c k h
  have hright : Function.RightInverse (feistel c k o') (feistel c k o) := feistel_feistel_of_ne c k h.symm
  exact ⟨⟨hleft.injective, hright.surjective⟩, hleft, hright⟩

/-! ## The engine's registers -/

theorem State.load_rnd_toNat (c : Config) (x : Block) (s : State) :
    (State.load c x s).rnd.toNat = 0 := rfl

/-- A row of ROUNDs counts itself (R122). -/
theorem State.rounds_rnd_toNat (c : Config) (o : Order) (n : Nat) {s : State}
    (hn : s.rnd.toNat + n ≤ 32) : (State.rounds c o n s).rnd.toNat = s.rnd.toNat + n := by
  induction n generalizing s with
  | zero => rfl
  | succ n ih =>
    have hround := State.round_rnd_toNat c o (s := s) (by omega)
    rw [State.rounds, ih (by omega), hround]
    omega

/-- A row of ROUNDs leaves in `A` and `B` the halves of the block function's rounds, under the round keys
from the one that `RND` counts (R121, R122). -/
theorem State.rounds_halves (c : Config) (o : Order) (n : Nat) {s : State} (hn : s.rnd.toNat + n ≤ 32) :
    ((State.rounds c o n s).a, (State.rounds c o n s).b) =
      feistelRounds c (roundKey s.k o) n s.rnd.toNat (s.a, s.b) := by
  induction n generalizing s with
  | zero => rfl
  | succ n ih =>
    have hround := State.round_rnd_toNat c o (s := s) (by omega)
    rw [State.rounds, ih (by omega), hround, feistelRounds_succ]
    rfl

/-- Load, 32 ROUNDs and unload are the block function (R124). -/
theorem State.unload_rounds_load (c : Config) (o : Order) (x : Block) (s : State) :
    State.unload c (State.rounds c o 32 (State.load c x s)) = feistel c s.k o x := by
  rw [State.unload_eq_assembleBlock, State.rounds_halves c o 32 (by simp), State.load_halves,
    State.load_rnd_toNat, State.load_k, feistel, feistelWith_eq]

/-- Settles O40: the count of ROUNDs, the halves they leave, and the registers they write. -/
theorem engineComputesFeistel : Obligations.EngineComputesFeistel := by
  unfold Obligations.EngineComputesFeistel
  intro c o x s _
  have hcount : ∀ n ≤ 32, (State.rounds c o n (State.load c x s)).rnd.toNat = n := fun n hn => by
    rw [State.rounds_rnd_toNat c o n (by simpa using hn), State.load_rnd_toNat, Nat.zero_add]
  refine ⟨hcount, State.unload_rounds_load c o x s, ?_⟩
  obtain ⟨a, b, r, hwrites⟩ := rounds_writes c o 32 (State.load c x s)
  have hr : r = 32 := by
    apply BitVec.eq_of_toNat_eq
    have h32 := hcount 32 le_rfl
    rwa [hwrites] at h32
  exact ⟨a, b, by rw [hwrites, hr]; rfl⟩

end Sys2Proof.Machine
end

section
/-!
Proofs for the family 44_mode_controller: LDIV, START and BLOCK on the state and at the port (R140 to
R151), the laws of whole streams (R154 to R160), and the machine of micro-steps against the other one
(R153). Two ideas carry the family. A BLOCK of an open stream is the row of the mode table for the latched
mode and direction, so a stream is a fold of that row over its blocks, and a law of streams is an induction
over the blocks with one fact about the row. And every micro-step is a step, unless it issues a block, and
then 34 micro-steps are.
-/

namespace Sys2Proof.Machine

/-! ## Block XOR -/

theorem bxor_comm (p q : Block) : bxor p q = bxor q p := by
  simp [bxor, hxor, BitVec.xor_comm]

@[simp] theorem bxor_bxor_right (p q : Block) : bxor (bxor p q) q = p := by
  simp [bxor, hxor]

@[simp] theorem bxor_bxor_left (p q : Block) : bxor p (bxor p q) = q := by
  rw [bxor_comm p q, bxor_comm p, bxor_bxor_right]

@[simp] theorem bxor_zeroBlock (p : Block) : bxor p zeroBlock = p := by
  simp [bxor, hxor, zeroBlock]

theorem blockBytes_bxor (p q : Block) :
    blockBytes (bxor p q) = List.zipWith (· ^^^ ·) (blockBytes p) (blockBytes q) := rfl

@[simp] theorem bxor_right_inj (p q r : Block) : bxor p q = bxor p r ↔ q = r :=
  ⟨fun h => by rw [← bxor_bxor_left p q, h, bxor_bxor_left], fun h => by rw [h]⟩

@[simp] theorem bxor_eq_right_iff (p q : Block) : bxor p q = q ↔ p = zeroBlock := by
  rw [bxor_comm, ← bxor_right_inj q p zeroBlock, bxor_zeroBlock]

/-- Settles O43: XOR of bytes has the three laws, and a block is its eight bytes. -/
theorem blockXorLaws : Obligations.BlockXorLaws := by
  unfold Obligations.BlockXorLaws
  exact fun p q => ⟨bxor_comm p q, bxor_bxor_right p q, bxor_zeroBlock p, blockBytes_bxor p q⟩

/-! ## A command's frame on an idle core -/

/-- An idle core takes the frame of a command off the port and runs the command. -/
theorem step_idle_command_frame {s : State} {cmd : Byte} {i : Instr} {rest : List Byte}
    (hp : s.ph = .idle) (hr : s.rst = false) (hcmd : cmd = cmdByte i) (hl : i.payload.length ≤ 255)
    (hrx : s.rx = rawFrame cmd i.payload ++ rest) :
    step s = .next (afterCommand i (s.withRx rest)) :=
  step_command_frame (State.running_of_idle hp) hr hl hrx (hcmd ▸ decodeFrame_cmdByte i)

/-! ## LDIV -/

theorem afterCommand_ldiv_effect {s : State} {pl : List Byte} (hp : s.ph ≠ .fault)
    (hl : pl.length = 8) : afterCommand (.ldiv pl) s = (s.setIv (blockOf pl)).respond 0 [] := by
  rw [afterCommand]
  exact runCommand_effect hp (by simp [firstFault_none, hl])

theorem afterCommand_ldiv_ivLen {s : State} {pl : List Byte} (hp : s.ph ≠ .fault)
    (hl : pl.length ≠ 8) : afterCommand (.ldiv pl) s = s.faultEntry .ivLen := by
  rw [afterCommand]
  exact runCommand_fails hp (by simp [checkIvLen, failIf, firstFault, hl])

/-- Settles O16: eight bytes are the bytes of a block, which the effect of LDIV stores. -/
theorem ldivLoadsIv : Obligations.LdivLoadsIv := by
  unfold Obligations.LdivLoadsIv
  intro s pl hidle hl
  obtain ⟨x, rfl⟩ := exists_blockBytes hl
  refine ⟨x, rfl, ?_⟩
  rw [exec_eq, afterCommand_ldiv_effect (State.ph_ne_fault_of_idle hidle) hl, blockOf_blockBytes]
  rfl

/-- The command byte of LDIV is `0x20` (R62). -/
theorem eq_cmdByte_ldiv {cmd : Byte} (hop : cmd.toNat / 16 = 2) (hlow : cmd.toNat % 16 = 0)
    (pl : List Byte) : cmd = cmdByte (.ldiv pl) :=
  BitVec.eq_of_toNat_eq (by change _ = 0x20; omega)

/-- Settles O17, case by case in the order of the pseudocode. -/
theorem ldivFrame : Obligations.LdivFrame := by
  unfold Obligations.LdivFrame
  intro s cmd pl rest hr hop hl hrx
  have hnf (hidle : s.ph = .idle) : (s.withRx rest).ph ≠ .fault := State.ph_ne_fault_of_idle hidle
  have hstep (hidle : s.ph = .idle) (hlow : cmd.toNat % 16 = 0) :
      step s = .next (afterCommand (.ldiv pl) (s.withRx rest)) :=
    step_idle_command_frame hidle hr (eq_cmdByte_ldiv hop hlow pl) hl hrx
  refine ⟨step_faulted_frame hr hl hrx, fun hidle hlow => ?_, fun hidle hlow hlen => ?_,
    fun hidle hlow x hx => ?_⟩
  · have hill : IllegalByR67 cmd pl := by unfold IllegalByR67; omega
    exact step_idle_illegal_frame hr hl hrx hidle hill
  · rw [hstep hidle hlow, afterCommand_ldiv_ivLen (hnf hidle) hlen, faultEntry_withRx, faultCode]
  · rw [hstep hidle hlow, hx, afterCommand_ldiv_effect (hnf hidle) (length_blockBytes x)]
    rfl

/-! ## START -/

theorem startStream_noKey {m : Mode} {d : Dir} {s : State} (hp : s.ph ≠ .fault) (hk : s.kv = false) :
    startStream m d s = s.faultEntry .noKey :=
  runCommand_fails hp (by simp [checkKey, failIf, firstFault, hk])

theorem startStream_noIv {m : Mode} {d : Dir} {s : State} (hp : s.ph ≠ .fault) (hk : s.kv = true)
    (hm : m ≠ .ecb) (hi : s.ivv = false) : startStream m d s = s.faultEntry .noIv :=
  runCommand_fails hp (by simp [checkKey, checkIv, failIf, firstFault, hk, hm, hi])

theorem startStream_ready {m : Mode} (d : Dir) {s : State} (h : ReadyFor m s) :
    startStream m d s = (s.openStream m d).respond 0 [] :=
  startStream_effect (State.ph_ne_fault_of_idle h.idle) h.key h.iv

/-- A START opens the stream it names. -/
theorem ReadyFor.openIn {m : Mode} {s : State} (h : ReadyFor m s) (d : Dir) :
    OpenIn m d ((s.openStream m d).respond 0 []) :=
  ⟨h.idle, h.key, rfl, rfl, rfl⟩

/-- Settles O19: the checks pass, and the command is the START of its mode and direction. -/
theorem startOpensStream : Obligations.StartOpensStream := by
  unfold Obligations.StartOpensStream
  intro i m d hi s h
  rw [(mem_startForms i m d).1 hi, exec_startInstr, startStream_ready d h]
  rfl

/-- The command byte of a START as a number (R62). -/
theorem toNat_startCmd (m : Mode) (d : Dir) :
    (startCmd m d).toNat = 0x30 + 4 * d.code.toNat + m.code.toNat := by
  cases m <;> cases d <;> rfl

/-- Settles O20, case by case in the order of the pseudocode. -/
theorem startFrame : Obligations.StartFrame := by
  unfold Obligations.StartFrame
  intro s cmd pl rest hr hop hl hrx
  have hnf (hidle : s.ph = .idle) : (s.withRx rest).ph ≠ .fault := State.ph_ne_fault_of_idle hidle
  refine ⟨step_faulted_frame hr hl hrx, fun hidle hbad => ?_, fun m d hidle hcmd hpl => ?_⟩
  · have hill : IllegalByR67 cmd pl := by unfold IllegalByR67; omega
    exact step_idle_illegal_frame hr hl hrx hidle hill
  · have hbyte : cmd = cmdByte (startInstr m d) := by
      rw [cmdByte_startInstr]
      exact BitVec.eq_of_toNat_eq (hcmd.trans (toNat_startCmd m d).symm)
    have hstep : step s = .next (startStream m d (s.withRx rest)) := by
      rw [← afterCommand_startInstr]
      exact step_idle_command_frame hidle hr hbyte (by simp) (by rw [payload_startInstr, ← hpl, hrx])
    refine ⟨fun hk => ?_, fun hk hm hi => ?_, fun hk hi => ?_⟩
    · rw [hstep, startStream_noKey (hnf hidle) hk, faultEntry_withRx, faultCode]
    · rw [hstep, startStream_noIv (hnf hidle) hk hm hi, faultEntry_withRx, faultCode]
    · have hready : ReadyFor m (s.withRx rest) := ⟨hidle, hk, fun hm => hi.resolve_left hm⟩
      rw [hstep, startStream_ready d hready]
      rfl

/-! ## BLOCK is the row of the mode table -/

/-- What the engine computes for a block `x` of a stream (R153, R96). -/
def feistelOutput (k : KeyFile) (m : Mode) (d : Dir) (x fb : Block) : Block :=
  feistel hw k (keyOrder m d) (feistelInput m d x fb)

/-- The mode table under a key file: output block and new feedback register (R144 to R151). -/
def cipherRow (k : KeyFile) (m : Mode) (d : Dir) (x fb : Block) : Block × Block :=
  modeRow (feistel hw k .enc) (feistel hw k .dec) m d x fb

theorem blockOutput_feistelOutput (k : KeyFile) (m : Mode) (d : Dir) (x fb : Block) :
    blockOutput m d x (feistelOutput k m d x fb) fb = (cipherRow k m d x fb).1 := by
  cases m <;> cases d <;> rfl

theorem nextFb_feistelOutput (k : KeyFile) (m : Mode) (d : Dir) (x fb : Block) :
    nextFb m d x (feistelOutput k m d x fb) (cipherRow k m d x fb).1 fb = (cipherRow k m d x fb).2 := by
  cases m <;> cases d <;> rfl

/-- The datapath as the engine leaves it: `A` and `B` hold the Feistel output, `RND` is 32 (R122, R123). -/
def State.setFeistel (s : State) (fo : Block) : State :=
  s.setEngine (h2w hw.halfOrder fo.first) (h2w hw.halfOrder fo.last) 32

theorem State.unload_setFeistel (s : State) (fo : Block) : State.unload hw (s.setFeistel fo) = fo := by
  simp [State.setFeistel, State.unload]

/-- The datapath registers are fixed by the block unloaded from them and the count. -/
theorem State.setEngine_eq_setFeistel {s : State} {a b : Word} {n : BitVec 6} {fo : Block}
    (hfo : State.unload hw (s.setEngine a b n) = fo) (hn : n.toNat = 32) :
    s.setEngine a b n = s.setFeistel fo := by
  have h32 : n = 32 := BitVec.eq_of_toNat_eq hn
  rw [← hfo, State.setFeistel, State.unload, h2w_w2h, h2w_w2h, h32]
  rfl

/-- The engine of an issued block leaves its Feistel output, in the phase RUN (R122 to R124). -/
theorem State.engine_issue (x : Block) (s : State) :
    State.engine hw (State.issue hw x s) =
      (s.setPh (.run x)).setFeistel (feistelOutput s.k s.mode s.dir x s.fb) := by
  have hunload := State.unload_rounds_load hw (keyOrder s.mode s.dir)
    (feistelInput s.mode s.dir x s.fb) s
  have hcount := State.rounds_rnd_toNat hw (keyOrder s.mode s.dir) 32
    (s := State.load hw (feistelInput s.mode s.dir x s.fb) s) (by simp)
  obtain ⟨a, b, r, hwrites⟩ := rounds_writes hw (keyOrder s.mode s.dir) 32
    (State.load hw (feistelInput s.mode s.dir x s.fb) s)
  rw [hwrites] at hunload hcount
  calc State.engine hw (State.issue hw x s)
      = State.rounds hw (keyOrder s.mode s.dir) 32
          ((State.load hw (feistelInput s.mode s.dir x s.fb) s).setPh (.run x)) := rfl
    _ = ((State.load hw (feistelInput s.mode s.dir x s.fb) s).setEngine a b r).setPh (.run x) := by
        rw [rounds_setPh, hwrites]
    _ = (s.setPh (.run x)).setFeistel (feistelOutput s.k s.mode s.dir x s.fb) := by
        rw [State.setEngine_eq_setFeistel hunload hcount]
        rfl

/-- ISSUE, the engine and RETIRE of an idle core together (R153). -/
theorem State.retire_engine_issue {s : State} (hp : s.ph = .idle) (x : Block) :
    State.retire hw x (State.engine hw (State.issue hw x s)) =
      afterBlock s (feistelOutput s.k s.mode s.dir x s.fb)
        (cipherRow s.k s.mode s.dir x s.fb).1 (cipherRow s.k s.mode s.dir x s.fb).2 := by
  rw [State.engine_issue, State.retire, State.unload_setFeistel, ← nextFb_feistelOutput,
    ← blockOutput_feistelOutput, ← hp]
  rfl

/-- A BLOCK that passes its checks, in any mode and direction (R142). -/
theorem afterCommand_block {s : State} (hp : s.ph = .idle) (hk : s.kv = true) (hs : s.sv = true)
    (x : Block) : afterCommand (.block (blockBytes x)) s =
      afterBlock s (feistelOutput s.k s.mode s.dir x s.fb)
        (cipherRow s.k s.mode s.dir x s.fb).1 (cipherRow s.k s.mode s.dir x s.fb).2 := by
  rw [afterCommand, runBlock_effect (State.ph_ne_fault_of_idle hp) (length_blockBytes x) hk hs,
    blockOf_blockBytes, State.retire_engine_issue hp]

theorem OpenIn.afterCommand_block {m : Mode} {d : Dir} {s : State} (h : OpenIn m d s) (x : Block) :
    afterCommand (.block (blockBytes x)) s =
      afterBlock s (feistelOutput s.k m d x s.fb) (cipherRow s.k m d x s.fb).1
        (cipherRow s.k m d x s.fb).2 := by
  rw [Machine.afterCommand_block h.idle h.key h.stream, h.mode, h.dir]

theorem OpenIn.exec_block {m : Mode} {d : Dir} {s : State} (h : OpenIn m d s) (x : Block) :
    exec (.block (blockBytes x)) s =
      .next (afterBlock s (feistelOutput s.k m d x s.fb) (cipherRow s.k m d x s.fb).1
        (cipherRow s.k m d x s.fb).2) := by
  rw [exec_eq, h.afterCommand_block]

/-- The stream stays open after a BLOCK. -/
theorem OpenIn.openIn_afterBlock {m : Mode} {d : Dir} {s : State} (h : OpenIn m d s) (fo y fb : Block) :
    OpenIn m d (afterBlock s fo y fb) :=
  ⟨h.idle, h.key, h.stream, h.mode, h.dir⟩

/-- Settles O22: the rows ECB of the mode table. -/
theorem blockEcb : Obligations.BlockEcb := by
  unfold Obligations.BlockEcb
  exact fun s x => ⟨fun h => h.exec_block x, fun h => h.exec_block x⟩

/-- Settles O23: the rows CBC of the mode table. -/
theorem blockCbc : Obligations.BlockCbc := by
  unfold Obligations.BlockCbc
  exact fun s x => ⟨fun h => h.exec_block x, fun h => h.exec_block x⟩

/-- Settles O24: the rows CFB of the mode table. -/
theorem blockCfb : Obligations.BlockCfb := by
  unfold Obligations.BlockCfb
  exact fun s x => ⟨fun h => h.exec_block x, fun h => h.exec_block x⟩

/-- Settles O25: the row OFB of the mode table, one for both directions. -/
theorem blockOfb : Obligations.BlockOfb := by
  unfold Obligations.BlockOfb
  intro d s x h
  rw [h.exec_block]
  cases d <;> rfl

theorem afterCommand_block_blkLen {s : State} {pl : List Byte} (hp : s.ph ≠ .fault)
    (hl : pl.length ≠ 8) : afterCommand (.block pl) s = s.faultEntry .blkLen := by
  rw [afterCommand, runBlock]
  exact runCommand_fails hp (by simp [blockChecks, checkBlkLen, failIf, firstFault, hl])

theorem afterCommand_block_noKey {s : State} {pl : List Byte} (hp : s.ph ≠ .fault)
    (hl : pl.length = 8) (hk : s.kv = false) : afterCommand (.block pl) s = s.faultEntry .noKey := by
  rw [afterCommand, runBlock]
  exact runCommand_fails hp (by simp [blockChecks, checkBlkLen, checkKey, failIf, firstFault, hl, hk])

theorem afterCommand_block_noStream {s : State} {pl : List Byte} (hp : s.ph ≠ .fault)
    (hl : pl.length = 8) (hk : s.kv = true) (hs : s.sv = false) :
    afterCommand (.block pl) s = s.faultEntry .noStream := by
  rw [afterCommand, runBlock]
  exact runCommand_fails hp
    (by simp [blockChecks, checkBlkLen, checkKey, checkStream, failIf, firstFault, hl, hk, hs])

/-- The command byte of BLOCK is `0x40` (R62). -/
theorem eq_cmdByte_block {cmd : Byte} (hop : cmd.toNat / 16 = 4) (hlow : cmd.toNat % 16 = 0)
    (pl : List Byte) : cmd = cmdByte (.block pl) :=
  BitVec.eq_of_toNat_eq (by change _ = 0x40; omega)

/-- Settles O26, case by case in the order of the pseudocode. -/
theorem blockFrame : Obligations.BlockFrame := by
  unfold Obligations.BlockFrame
  intro s cmd pl rest hr hop hl hrx
  have hnf (hidle : s.ph = .idle) : (s.withRx rest).ph ≠ .fault := State.ph_ne_fault_of_idle hidle
  have hstep (hidle : s.ph = .idle) (hlow : cmd.toNat % 16 = 0) :
      step s = .next (afterCommand (.block pl) (s.withRx rest)) :=
    step_idle_command_frame hidle hr (eq_cmdByte_block hop hlow pl) hl hrx
  refine ⟨step_faulted_frame hr hl hrx, fun hidle hlow => ?_, fun hidle hlow hlen => ?_,
    fun hidle hlow hlen hk => ?_, fun hidle hlow hlen hk hs => ?_, fun hidle hlow hk hs x hx => ?_⟩
  · have hill : IllegalByR67 cmd pl := by unfold IllegalByR67; omega
    exact step_idle_illegal_frame hr hl hrx hidle hill
  · rw [hstep hidle hlow, afterCommand_block_blkLen (hnf hidle) hlen, faultEntry_withRx, faultCode]
  · rw [hstep hidle hlow, afterCommand_block_noKey (hnf hidle) hlen hk, faultEntry_withRx, faultCode]
  · rw [hstep hidle hlow, afterCommand_block_noStream (hnf hidle) hlen hk hs, faultEntry_withRx,
      faultCode]
  · rw [hstep hidle hlow, hx, afterCommand_block (s := s.withRx rest) hidle hk hs]
    exact ⟨_, _, rfl⟩

/-! ## Streams are folds of the mode table -/

/-- One BLOCK for each of these blocks. -/
def blockCommands (xs : List Block) : List Instr := xs.map (fun x => .block (blockBytes x))

/-- The responses that carry these output blocks. -/
def blockResponses (ys : List Block) : List Response := ys.map (fun y => ⟨0x00, blockBytes y⟩)

/-- The output blocks of a stream of blocks from a feedback register on. -/
def streamOutputs (k : KeyFile) (m : Mode) (d : Dir) : Block → List Block → List Block
  | _, [] => []
  | fb, x :: xs => (cipherRow k m d x fb).1 :: streamOutputs k m d (cipherRow k m d x fb).2 xs

/-- The feedback register after a stream of blocks. -/
def streamFb (k : KeyFile) (m : Mode) (d : Dir) (fb : Block) (xs : List Block) : Block :=
  xs.foldl (fun fb x => (cipherRow k m d x fb).2) fb

@[simp] theorem length_streamOutputs (k : KeyFile) (m : Mode) (d : Dir) (fb : Block) (xs : List Block) :
    (streamOutputs k m d fb xs).length = xs.length := by
  induction xs generalizing fb with
  | nil => rfl
  | cons x xs ih => rw [streamOutputs, List.length_cons, ih, List.length_cons]

theorem afterBlock_tx (s : State) (fo y fb : Block) :
    (afterBlock s fo y fb).tx = s.tx ++ [⟨0x00, blockBytes y⟩] := rfl

/-- The blocks of an open stream complete, each answered by its output block. -/
theorem OpenIn.execAll_blockCommands {m : Mode} {d : Dir} (xs : List Block) {s : State}
    (h : OpenIn m d s) : ∃ t, execAll (blockCommands xs) s = .next t ∧
      t.tx = s.tx ++ blockResponses (streamOutputs s.k m d s.fb xs) ∧
      t.fb = streamFb s.k m d s.fb xs := by
  induction xs generalizing s with
  | nil => exact ⟨s, rfl, (List.append_nil _).symm, rfl⟩
  | cons x xs ih =>
    obtain ⟨t, ht, htx, hfb⟩ := ih (h.openIn_afterBlock (feistelOutput s.k m d x s.fb)
      (cipherRow s.k m d x s.fb).1 (cipherRow s.k m d x s.fb).2)
    refine ⟨t, ?_, ?_, hfb⟩
    · rw [blockCommands, List.map_cons, execAll_cons, h.afterCommand_block]
      exact ht
    · rw [htx, afterBlock_tx, List.append_assoc]
      rfl

/-- The feedback register a START seeds a stream with (R141). -/
def State.seed (s : State) : Block := if s.ivv then s.iv else s.fb

theorem State.seed_of_ivv {s : State} (h : s.ivv = true) : s.seed = s.iv := by
  rw [State.seed, if_pos h]

/-- A whole stream on a core ready for it: the START is answered with no output, then each block with
its output block. -/
theorem ReadyFor.execAll_stream {m : Mode} {s : State} (h : ReadyFor m s) (d : Dir) (xs : List Block) :
    ∃ t, execAll (startInstr m d :: blockCommands xs) s = .next t ∧
      t.tx = s.tx ++ ⟨0x00, []⟩ :: blockResponses (streamOutputs s.k m d s.seed xs) ∧
      t.fb = streamFb s.k m d s.seed xs := by
  obtain ⟨t, ht, htx, hfb⟩ := (h.openIn d).execAll_blockCommands xs
  refine ⟨t, ?_, ?_, hfb⟩
  · rw [execAll_cons, afterCommand_startInstr, startStream_ready d h, ht]
  · rw [htx, State.respond_tx, List.append_assoc]
    rfl

/-! ## The round trip -/

/-- One block of the round trip (R158): the DEC row of the mode table undoes the ENC row, and in a chaining
mode the two feedback registers stay equal. -/
theorem cipherRow_dec_enc (k : KeyFile) (m : Mode) (x : Block) {fb fb' : Block}
    (hfb : m ≠ .ecb → fb = fb') :
    (cipherRow k m .dec (cipherRow k m .enc x fb).1 fb').1 = x ∧
      (m ≠ .ecb → (cipherRow k m .enc x fb).2 = (cipherRow k m .dec (cipherRow k m .enc x fb).1 fb').2) := by
  have hinv (y : Block) : feistel hw k .dec (feistel hw k .enc y) = y := (feistelInverse hw k y).1
  cases m with
  | ecb => exact ⟨hinv x, fun h => absurd rfl h⟩
  | cbc => cases hfb nofun; simp [cipherRow, modeRow, hinv]
  | cfb => cases hfb nofun; simp [cipherRow, modeRow]
  | ofb => cases hfb nofun; simp [cipherRow, modeRow]

theorem streamOutputs_dec_enc (k : KeyFile) (m : Mode) (xs : List Block) {fb fb' : Block}
    (hfb : m ≠ .ecb → fb = fb') :
    streamOutputs k m .dec fb' (streamOutputs k m .enc fb xs) = xs := by
  induction xs generalizing fb fb' with
  | nil => rfl
  | cons x xs ih =>
    obtain ⟨hx, hnext⟩ := cipherRow_dec_enc k m x hfb
    rw [streamOutputs, streamOutputs, hx, ih hnext]

/-- Settles O46, by induction over the blocks. -/
theorem roundTripEveryMode : Obligations.RoundTripEveryMode := by
  unfold Obligations.RoundTripEveryMode
  intro m s s' ps h h' hk hiv
  have hseed : m ≠ .ecb → s.seed = s'.seed := fun hm => by
    rw [State.seed_of_ivv (h.iv hm), State.seed_of_ivv (h'.iv hm), hiv hm]
  obtain ⟨t, ht, htx, -⟩ := h.execAll_stream .enc ps
  obtain ⟨t', ht', htx', -⟩ := h'.execAll_stream .dec (streamOutputs s.k m .enc s.seed ps)
  rw [← hk, streamOutputs_dec_enc s.k m ps hseed] at htx'
  exact ⟨_, t, t', length_streamOutputs _ _ _ _ _, ht, htx, ht', htx'⟩

/-! ## What a stream depends on -/

/-- Settles O21: a stream's responses and `FB` are functions of the key, the IV and the blocks. -/
theorem startReseeds : Obligations.StartReseeds := by
  unfold Obligations.StartReseeds
  intro i m d hi s s' xs h h' hk hivv hivv' hiv
  have hseed : s.seed = s'.seed := by rw [State.seed_of_ivv hivv, State.seed_of_ivv hivv', hiv]
  rw [(mem_startForms i m d).1 hi]
  obtain ⟨t, ht, htx, hfb⟩ := h.execAll_stream d xs
  obtain ⟨t', ht', htx', hfb'⟩ := h'.execAll_stream d xs
  rw [← hk, ← hseed] at htx' hfb'
  exact ⟨t, t', _, ht, ht', htx, htx', by simp [blockResponses], hfb.trans hfb'.symm⟩

theorem cipherRow_ecb (k : KeyFile) (d : Dir) (x fb : Block) :
    cipherRow k .ecb d x fb = (feistel hw k (keyOrder .ecb d) x, fb) := by
  cases d <;> rfl

/-- In ECB each block is enciphered on its own (R144, R145). -/
theorem streamOutputs_ecb (k : KeyFile) (d : Dir) (fb : Block) (xs : List Block) :
    streamOutputs k .ecb d fb xs = xs.map (feistel hw k (keyOrder .ecb d)) := by
  induction xs with
  | nil => rfl
  | cons x xs ih => rw [streamOutputs, cipherRow_ecb, ih, List.map_cons]

/-- Settles O47: the responses of an ECB stream are the block function on each block. -/
theorem ecbIgnoresIv : Obligations.EcbIgnoresIv := by
  unfold Obligations.EcbIgnoresIv
  intro d s v w loaded xs hidle hk
  have h : ReadyFor .ecb s := ⟨hidle, hk, fun hm => absurd rfl hm⟩
  have h' : ReadyFor .ecb { s with iv := v, ivv := loaded, fb := w } :=
    ⟨hidle, hk, fun hm => absurd rfl hm⟩
  obtain ⟨t, ht, htx, -⟩ := h.execAll_stream d xs
  obtain ⟨t', ht', htx', -⟩ := h'.execAll_stream d xs
  rw [streamOutputs_ecb] at htx htx'
  exact ⟨t, t', _, ht, ht', htx, htx'.trans htx.symm, _, List.map_map⟩

theorem feistel_injective (c : Config) (k : KeyFile) (o : Order) : Function.Injective (feistel c k o) := by
  cases o with
  | enc => exact (feistelBijective c k .enc .dec nofun).1.injective
  | dec => exact (feistelBijective c k .dec .enc nofun).1.injective

/-- In a chaining mode the output of a block determines the feedback register it was made with (R159). -/
theorem cipherRow_fb_injective (k : KeyFile) {m : Mode} (hm : m ≠ .ecb) (d : Dir) (x : Block) :
    Function.Injective (fun fb => (cipherRow k m d x fb).1) := by
  intro v w h
  have hE := feistel_injective hw k .enc
  cases m with
  | ecb => exact absurd rfl hm
  | cbc =>
    cases d with
    | enc => exact (bxor_right_inj x v w).1 (hE h)
    | dec => exact (bxor_right_inj _ v w).1 h
  | cfb => cases d <;> exact hE ((bxor_right_inj x _ _).1 h)
  | ofb => cases d <;> exact hE ((bxor_right_inj x _ _).1 h)

/-- LDIV on an idle core with a key makes it ready for every mode. -/
theorem readyFor_setIv {s : State} (hp : s.ph = .idle) (hk : s.kv = true) (v : Block) (m : Mode) :
    ReadyFor m ((s.setIv v).respond 0 []) :=
  ⟨hp, hk, fun _ => rfl⟩

theorem afterCommand_ldiv_blockBytes {s : State} (hp : s.ph = .idle) (v : Block) :
    afterCommand (.ldiv (blockBytes v)) s = (s.setIv v).respond 0 [] := by
  rw [afterCommand_ldiv_effect (State.ph_ne_fault_of_idle hp) (length_blockBytes v), blockOf_blockBytes]

/-- LDIV, START and one BLOCK on an idle core with a key. -/
theorem execAll_ldiv_start_block {s : State} (hp : s.ph = .idle) (hk : s.kv = true) (m : Mode) (d : Dir)
    (v x : Block) :
    ∃ t, execAll [.ldiv (blockBytes v), startInstr m d, .block (blockBytes x)] s = .next t ∧
      t.tx = s.tx ++ [⟨0x00, []⟩, ⟨0x00, []⟩, ⟨0x00, blockBytes (cipherRow s.k m d x v).1⟩] := by
  obtain ⟨t, ht, htx, -⟩ := (readyFor_setIv hp hk v m).execAll_stream d [x]
  refine ⟨t, ?_, ?_⟩
  · rw [execAll_cons, afterCommand_ldiv_blockBytes hp]
    exact ht
  · rw [htx, State.respond_tx, List.append_assoc]
    rfl

/-- Settles O48: the row of the mode table is injective in the feedback register. -/
theorem feedbackSensitivity : Obligations.FeedbackSensitivity := by
  unfold Obligations.FeedbackSensitivity
  intro m d s v w x hm hvw hidle hk
  have hne : blockBytes (cipherRow s.k m d x v).1 ≠ blockBytes (cipherRow s.k m d x w).1 := fun h =>
    hvw (cipherRow_fb_injective s.k hm d x (blockBytes_injective h))
  refine ⟨fun h => ?_, ?_⟩
  · have hfb (u : Block) : OpenIn m d { s with fb := u } :=
      ⟨h.idle, h.key, h.stream, h.mode, h.dir⟩
    exact ⟨_, _, _, _, (hfb v).exec_block x, rfl, (hfb w).exec_block x, rfl, hne⟩
  · obtain ⟨t, ht, htx⟩ := execAll_ldiv_start_block hidle hk m d v x
    obtain ⟨t', ht', htx'⟩ := execAll_ldiv_start_block hidle hk m d w x
    exact ⟨t, t', _, _, ht, htx, ht', htx', hne⟩

/-- Settles O49: the outputs are read off the mode table, and the second ones agree exactly when the
first outputs equal the keystream block. -/
theorem cfbOfbFirstBlock : Obligations.CfbOfbFirstBlock := by
  unfold Obligations.CfbOfbFirstBlock
  intro s p₁ p₂ hidle hk hivv
  obtain ⟨t, ht, htx, -⟩ :=
    ReadyFor.execAll_stream (m := .cfb) ⟨hidle, hk, fun _ => hivv⟩ .enc [p₁, p₂]
  obtain ⟨t', ht', htx', -⟩ :=
    ReadyFor.execAll_stream (m := .ofb) ⟨hidle, hk, fun _ => hivv⟩ .enc [p₁, p₂]
  rw [State.seed_of_ivv hivv] at htx htx'
  refine ⟨t, t', _, _, _, ht, htx, ht', htx', rfl, rfl, rfl, ?_⟩
  exact (bxor_right_inj p₂ _ _).trans
    ((feistel_injective hw s.k .enc).eq_iff.trans (bxor_eq_right_iff p₁ _))

/-- In OFB the feedback register takes no notice of the block or the direction (R150, R151). -/
theorem streamFb_ofb (k : KeyFile) (d : Dir) (fb : Block) (xs : List Block) :
    streamFb k .ofb d fb xs = (feistel hw k .enc)^[xs.length] fb := by
  have hrow (x fb : Block) : (cipherRow k .ofb d x fb).2 = feistel hw k .enc fb := by cases d <;> rfl
  induction xs generalizing fb with
  | nil => rfl
  | cons x xs ih =>
    rw [List.length_cons, Function.iterate_succ_apply, ← ih, ← hrow x]
    rfl

/-- Settles O50, by induction over the blocks. -/
theorem ofbRegisterIterates : Obligations.OfbRegisterIterates := by
  unfold Obligations.OfbRegisterIterates
  intro d s xs h
  obtain ⟨t, ht, -, hfb⟩ := h.execAll_stream d xs
  exact ⟨t, ht, by rw [hfb, streamFb_ofb, State.seed_of_ivv (h.iv nofun)]⟩

/-- A BLOCK behind an LDIV ends as the BLOCK alone, but for `IV`, `IVV` and the LDIV's response (R156). -/
theorem OpenIn.execAll_ldiv_block {m : Mode} {d : Dir} {s t : State} (h : OpenIn m d s) (v x : Block)
    (ht : afterCommand (.block (blockBytes x)) s = t) (is : List Instr) :
    execAll (.ldiv (blockBytes v) :: .block (blockBytes x) :: is) s = execAll is { t with
      iv := v, ivv := true,
      tx := s.tx ++ [⟨0x00, []⟩, ⟨0x00, blockBytes (cipherRow s.k m d x s.fb).1⟩] } := by
  have hopen : OpenIn m d ((s.setIv v).respond 0 []) := ⟨h.idle, h.key, h.stream, h.mode, h.dir⟩
  rw [execAll_cons, afterCommand_ldiv_blockBytes h.idle, execAll_cons, hopen.afterCommand_block, ← ht,
    h.afterCommand_block, afterBlock, State.respond_tx, List.append_assoc]
  rfl

/-- Every START on an idle core with a key and an IV seeds `FB` from that IV (R141). -/
theorem execAll_start_seeds {s : State} (hp : s.ph = .idle) (hk : s.kv = true) (hivv : s.ivv = true)
    {p : Instr × Mode × Dir} (hmem : p ∈ startForms) :
    ∃ u, execAll [p.1] s = .next u ∧ u.fb = s.iv := by
  obtain ⟨i, m, d⟩ := p
  have hready : ReadyFor m s := ⟨hp, hk, fun _ => hivv⟩
  rw [(mem_startForms i m d).1 hmem, execAll_cons, afterCommand_startInstr, startStream_ready d hready]
  exact ⟨_, rfl, by rw [State.respond_fb, State.openStream_fb, if_pos hivv]⟩

/-- Settles O18: the BLOCK behind the LDIV keeps the core ready with `IVV` set, so each START seeds `FB`
from the new IV. -/
theorem ldivInsideStream : Obligations.LdivInsideStream := by
  unfold Obligations.LdivInsideStream
  intro m d s v x h
  have ht := h.afterCommand_block x
  refine ⟨_, _, (execAll_cons _ [] s).trans (congrArg _ ht), rfl, h.execAll_ldiv_block v x ht [], ?_⟩
  intro p hmem
  rw [h.execAll_ldiv_block v x ht]
  refine execAll_start_seeds ?_ ?_ rfl hmem
  · exact h.idle
  · exact h.key

/-! ## Every micro-step but an ISSUE is a step -/

/-- A BLOCK either ends in one and the same state at either granularity or passes its checks on a core that
is not faulted. -/
theorem issueBlock_eq_runBlock_or (c : Config) (pl : List Byte) (s : State) :
    issueBlock c pl s = runBlock c pl s ∨
      (s.ph ≠ .fault ∧ pl.length = 8 ∧ s.kv = true ∧ s.sv = true) := by
  by_cases h : s.ph = .fault ∨ firstFault (blockChecks pl s) ≠ none
  · exact .inl (issueBlock_stops h)
  · obtain ⟨hp, hc⟩ := not_or.1 h
    exact .inr ⟨hp, (blockChecks_pass pl s).1 (not_not.1 hc)⟩

/-- The next step takes a BLOCK off the port that passes its checks (R142). -/
structure IssuesBlock (s : State) (x : Block) (rest : List Byte) : Prop where
  rst : s.rst = false
  idle : s.ph = .idle
  key : s.kv = true
  stream : s.sv = true
  port : decode s.rx = .instr (.block (blockBytes x)) rest

/-- A micro-step is a step, unless it issues a block. -/
theorem microStep_eq_step_or_issues (s : State) :
    microStep s = step s ∨ ∃ x rest, IssuesBlock s x rest := by
  rw [microStep, step]
  obtain hr | ⟨hr, x, hp⟩ | ⟨hr, hp⟩ := s.turn_cases
  · exact .inl (by rw [fetchStep_reset _ s hr, fetchStep_reset _ s hr])
  · exact .inl (by rw [fetchStep_run _ s x hr hp, fetchStep_run _ s x hr hp])
  · rw [fetchStep_accept _ s hr hp, fetchStep_accept _ s hr hp]
    cases hd : decode s.rx with
    | wait => exact .inl (by rw [acceptFrame_wait _ hd, acceptFrame_wait _ hd])
    | illegal why rest => exact .inl (by rw [acceptFrame_illegal _ hd, acceptFrame_illegal _ hd])
    | instr i rest =>
      rw [acceptFrame_instr _ hd, acceptFrame_instr _ hd]
      obtain ⟨pl, rfl, hmicro⟩ | hsame := microExec_cases i (s.withRx rest)
      · obtain hstop | ⟨hnf, hl, hk, hs⟩ := issueBlock_eq_runBlock_or hw pl (s.withRx rest)
        · exact .inl (by rw [hmicro, hstop, exec_eq, afterCommand])
        · obtain ⟨x, rfl⟩ := exists_blockBytes hl
          exact .inr ⟨x, rest, hr, State.ph_eq_idle hp hnf, hk, hs, hd⟩
      · exact .inl hsame

/-- Settles O56: each of the cases excludes that a block is issued. -/
theorem microStepIsStep : Obligations.MicroStepIsStep := by
  unfold Obligations.MicroStepIsStep
  intro s hcase
  refine (microStep_eq_step_or_issues s).resolve_right ?_
  rintro ⟨x, rest, hr, hidle, hk, hs, hport⟩
  obtain h | h | h | h | h := hcase
  · exact absurd (hr.symm.trans h) nofun
  · exact h hidle
  · exact absurd (hk.symm.trans h) nofun
  · exact absurd (hs.symm.trans h) nofun
  · exact h x rest hport

/-! ## A block in micro-steps -/

theorem microStep_run {s : State} {x : Block} (hp : s.ph = .run x) (hr : s.rst = false) :
    microStep s = runStep hw x s :=
  fetchStep_run microExec s x hr hp

/-- While a block is running and `RND` has not reached 32, micro-steps are ROUNDs (R122, R153). -/
theorem microRun_rounds (n : Nat) {s : State} {x : Block} (hp : s.ph = .run x) (hr : s.rst = false)
    (hn : s.rnd.toNat + n ≤ 32) :
    microRun n s = .next (State.rounds hw (keyOrder s.mode s.dir) n s) := by
  induction n generalizing s with
  | zero => rfl
  | succ n ih =>
    have hlt : s.rnd.toNat < 32 := by omega
    have hstep : microStep s = .next (State.round hw (keyOrder s.mode s.dir) s) := by
      rw [microStep_run hp hr, runStep, if_pos hlt]
    have hround := State.round_rnd_toNat hw (keyOrder s.mode s.dir) hlt
    rw [microRun_next hstep]
    exact ih (s := State.round hw (keyOrder s.mode s.dir) s) hp hr (by omega)

/-- At `RND = 32` a micro-step of a running block is RETIRE (R153). -/
theorem microStep_retire {s : State} {x : Block} (hp : s.ph = .run x) (hr : s.rst = false)
    (hn : s.rnd = 32) : microStep s = .next (State.retire hw x s) := by
  rw [microStep_run hp hr, runStep, hn]
  rfl

section issue
variable {s : State} {x : Block} {rest : List Byte} (h : IssuesBlock s x rest)
include h

theorem IssuesBlock.not_faulted : (s.withRx rest).ph ≠ .fault := State.ph_ne_fault_of_idle h.idle

theorem IssuesBlock.microStep : microStep s = .next (State.issue hw x (s.withRx rest)) := by
  have hchecks : firstFault (blockChecks (blockBytes x) (s.withRx rest)) = none :=
    (blockChecks_pass _ _).2 ⟨length_blockBytes x, h.key, h.stream⟩
  rw [Machine.microStep, fetchStep_accept _ s h.rst (State.running_of_idle h.idle),
    acceptFrame_instr _ h.port, microExec, issueBlock, runCommand_effect h.not_faulted hchecks,
    blockOf_blockBytes]

theorem IssuesBlock.step :
    step s = .next (State.retire hw x (State.engine hw (State.issue hw x (s.withRx rest)))) := by
  rw [Machine.step, fetchStep_accept _ s h.rst (State.running_of_idle h.idle),
    acceptFrame_instr _ h.port, exec_eq, afterCommand,
    runBlock_effect h.not_faulted (length_blockBytes x) h.key h.stream, blockOf_blockBytes]

/-- ISSUE and the first `n` ROUNDs. -/
theorem IssuesBlock.microRun_succ {n : Nat} (hn : n ≤ 32) : microRun (n + 1) s =
    .next (State.rounds hw (keyOrder s.mode s.dir) n (State.issue hw x (s.withRx rest))) := by
  rw [microRun_next h.microStep]
  exact microRun_rounds n (s := State.issue hw x (s.withRx rest)) rfl h.rst (by simpa using hn)

/-- ISSUE, 32 ROUNDs and RETIRE are the one step (R153). -/
theorem IssuesBlock.microRun_eq_step : microRun 34 s = Machine.step s := by
  have hissued : (State.issue hw x (s.withRx rest)).ph = .run x := rfl
  have hretire : Machine.microStep (State.engine hw (State.issue hw x (s.withRx rest))) =
      .next (State.retire hw x (State.engine hw (State.issue hw x (s.withRx rest)))) := by
    refine microStep_retire ?_ ?_ ?_
    · rw [State.engine_ph, hissued]
    · rw [State.engine_rst]; exact h.rst
    · rw [State.engine_issue]; rfl
  calc microRun 34 s
      = microRun 1 (State.engine hw (State.issue hw x (s.withRx rest))) :=
        microRun_add 1 (h.microRun_succ le_rfl)
    _ = .next (State.retire hw x (State.engine hw (State.issue hw x (s.withRx rest)))) :=
        microRun_next hretire
    _ = Machine.step s := h.step.symm

end issue

/-- Settles O44: after ISSUE the ROUNDs write the datapath registers only, and RETIRE ends them in the
state of the step. -/
theorem microStepsMakeOneStep : Obligations.MicroStepsMakeOneStep := by
  unfold Obligations.MicroStepsMakeOneStep
  intro m d s x rest hopen hr hrx
  have h : IssuesBlock s x rest := ⟨hr, hopen.idle, hopen.key, hopen.stream, by
    rw [hrx]; exact decode_encode_append rest rfl⟩
  refine ⟨fun n h1 h33 => ?_, h.microRun_eq_step⟩
  obtain ⟨n, rfl⟩ := Nat.exists_eq_add_of_le' h1
  have hn : n ≤ 32 := by omega
  have hcount := State.rounds_rnd_toNat hw (keyOrder s.mode s.dir) n
    (s := State.issue hw x (s.withRx rest)) (by simpa using hn)
  obtain ⟨a, b, r, hwrites⟩ := rounds_writes hw (keyOrder s.mode s.dir) n
    (State.issue hw x (s.withRx rest))
  refine ⟨_, h.microRun_succ hn, ?_⟩
  rw [hwrites] at hcount ⊢
  exact ⟨rfl, by simpa using hcount, rfl, rfl, rfl⟩

/-! ## Runs of the two machines -/

/-- Micro-steps after a stop change nothing. -/
theorem microRun_add_of_stop (b : Nat) : ∀ {a : Nat} {s : State}, (∀ t, microRun a s ≠ .next t) →
    microRun (a + b) s = microRun a s
  | 0, s, h => absurd rfl (h s)
  | a + 1, s, h => by
    rw [Nat.add_right_comm, microRun, microRun]
    cases hs : microStep s with
    | next u => exact microRun_add_of_stop b (by simpa only [microRun_next hs] using h)
    | fault r => rfl
    | refused r => rfl

/-- A run whose first step stops ends in that stop. -/
theorem core_run_of_stop (n : Nat) {s : State} (h : ∀ t, step s ≠ .next t) :
    Host.Core.run Sys2Proof.core (n + 1) s = step s := by
  cases hs : step s with
  | next t => exact absurd hs (h t)
  | fault r => exact run_fault hs
  | refused r => exact run_refused hs

/-- Every step is some number of micro-steps, 1 to 34 (R153). -/
theorem exists_microRun_step (s : State) : ∃ k, 1 ≤ k ∧ k ≤ 34 ∧ microRun k s = step s := by
  obtain hsame | ⟨x, rest, h⟩ := microStep_eq_step_or_issues s
  · refine ⟨1, le_rfl, by omega, ?_⟩
    rw [microRun, ← hsame]
    cases microStep s <;> rfl
  · exact ⟨34, by omega, le_rfl, h.microRun_eq_step⟩

/-- Settles O57, by induction over the steps: the micro-steps of the first step, then those of the
others. -/
theorem microMachineAgrees : Obligations.MicroMachineAgrees := by
  unfold Obligations.MicroMachineAgrees
  intro n
  induction n with
  | zero => exact fun s => ⟨0, le_rfl, le_rfl, rfl⟩
  | succ n ih =>
    intro s
    obtain ⟨k, hk1, hk34, hk⟩ := exists_microRun_step s
    by_cases hnext : ∃ t, step s = .next t
    · obtain ⟨t, hs⟩ := hnext
      obtain ⟨m, hm1, hm2, hm⟩ := ih t
      refine ⟨k + m, by omega, by omega, ?_⟩
      rw [microRun_add m (hk.trans hs), hm, core_run_next hs]
    · have hstop : ∀ t, step s ≠ .next t := not_exists.1 hnext
      refine ⟨k + n, by omega, by omega, ?_⟩
      rw [microRun_add_of_stop n (hk ▸ hstop), hk, core_run_of_stop n hstop]

end Sys2Proof.Machine
end

section
/-!
Proofs for the family 45_stream_operations: cutting and padding a byte string (R170, R171) and what a
stream operation returns (R174, R177 to R179). One idea carries the family: padding the chunks of a string
is cutting the padded string, so a stream operation on bytes is the stream of the padded string's blocks,
and the laws of streams of blocks (R158) apply to it.
-/

namespace Sys2Proof.Machine

/-! ## Chunks of the padded string -/

/-- A byte string filled up with zero bytes to a whole number of blocks (R171). -/
def paddedString (d : List Byte) : List Byte :=
  d ++ List.replicate (8 * chunkCount d.length - d.length) 0

theorem le_eight_mul_chunkCount (n : Nat) : n ≤ 8 * chunkCount n := by
  unfold chunkCount; omega

/-- The padding is shorter than a block (R171). -/
theorem padding_lt (n : Nat) : 8 * chunkCount n - n < 8 := by
  unfold chunkCount; omega

/-- Only whole blocks get no padding (R178). -/
theorem padding_eq_zero_iff (n : Nat) : 8 * chunkCount n - n = 0 ↔ n % 8 = 0 := by
  unfold chunkCount; omega

@[simp] theorem length_paddedString (d : List Byte) :
    (paddedString d).length = 8 * chunkCount d.length := by
  rw [paddedString, List.length_append, List.length_replicate]
  exact Nat.add_sub_of_le (le_eight_mul_chunkCount _)

theorem paddedString_eq_self_iff (d : List Byte) : paddedString d = d ↔ d.length % 8 = 0 := by
  rw [paddedString, List.append_right_eq_self, List.replicate_eq_nil_iff, padding_eq_zero_iff]

/-- Padding a chunk is cutting the padded string. -/
theorem padChunk_chunk (d : List Byte) {i : Nat} (hi : i < chunkCount d.length) :
    padChunk (chunk d i) = chunk (paddedString d) i := by
  have hstart : 8 * i ≤ d.length := by unfold chunkCount at hi; omega
  have hpad : 8 - min 8 (d.length - 8 * i) =
      min (8 - (d.length - 8 * i)) (8 * chunkCount d.length - d.length) := by
    unfold chunkCount at hi ⊢; omega
  rw [padChunk, chunk, chunk, paddedString, List.drop_append_of_le_length hstart, List.take_append,
    List.take_replicate, List.length_take, List.length_drop, hpad]

theorem paddedChunks_eq (d : List Byte) :
    paddedChunks d = (List.range (chunkCount d.length)).map (chunk (paddedString d)) :=
  List.map_congr_left fun _ hi => padChunk_chunk d (List.mem_range.1 hi)

/-- The first `n` chunks are the first `8 * n` bytes (R170). -/
theorem flatten_map_chunk (d : List Byte) (n : Nat) :
    ((List.range n).map (chunk d)).flatten = d.take (8 * n) := by
  induction n with
  | zero => rfl
  | succ n ih =>
    rw [List.range_succ, List.map_append, List.flatten_append, ih, Nat.mul_succ, List.take_add]
    simp [chunk]

theorem length_paddedChunks (d : List Byte) : (paddedChunks d).length = chunkCount d.length := by
  rw [paddedChunks, List.length_map, List.length_range]

theorem length_of_mem_paddedChunks {d ch : List Byte} (h : ch ∈ paddedChunks d) : ch.length = 8 := by
  rw [paddedChunks_eq] at h
  obtain ⟨i, hi, rfl⟩ := List.mem_map.1 h
  rw [List.mem_range] at hi
  rw [chunk, List.length_take, List.length_drop, length_paddedString]
  omega

theorem flatten_paddedChunks (d : List Byte) : (paddedChunks d).flatten = paddedString d := by
  rw [paddedChunks_eq, flatten_map_chunk, ← length_paddedString, List.take_length]

/-- Settles O51: the chunks are those of the padded string. -/
theorem chunksArePaddedString : Obligations.ChunksArePaddedString := by
  unfold Obligations.ChunksArePaddedString
  exact fun d => ⟨length_paddedChunks d, fun _ => length_of_mem_paddedChunks,
    flatten_paddedChunks d, padding_lt d.length⟩

/-! ## A stream operation is a stream of blocks -/

/-- The blocks a byte string is sent as (R172). -/
def paddedBlocks (d : List Byte) : List Block := (paddedChunks d).map blockOf

theorem blockBytes_blockOf {pl : List Byte} (h : pl.length = 8) : blockBytes (blockOf pl) = pl := by
  obtain ⟨x, rfl⟩ := exists_blockBytes h
  rw [blockOf_blockBytes]

theorem map_blockBytes_paddedBlocks (d : List Byte) :
    (paddedBlocks d).map blockBytes = paddedChunks d := by
  rw [paddedBlocks, List.map_map]
  calc (paddedChunks d).map (blockBytes ∘ blockOf)
      = (paddedChunks d).map id :=
        List.map_congr_left fun _ h => blockBytes_blockOf (length_of_mem_paddedChunks h)
    _ = paddedChunks d := List.map_id _

@[simp] theorem length_paddedBlocks (d : List Byte) :
    (paddedBlocks d).length = chunkCount d.length := by
  rw [paddedBlocks, List.length_map, length_paddedChunks]

theorem flatMap_blockBytes_paddedBlocks (d : List Byte) :
    (paddedBlocks d).flatMap blockBytes = paddedString d := by
  rw [List.flatMap_def, map_blockBytes_paddedBlocks, flatten_paddedChunks]

@[simp] theorem length_flatMap_blockBytes (xs : List Block) :
    (xs.flatMap blockBytes).length = 8 * xs.length := by
  induction xs with
  | nil => rfl
  | cons x xs ih =>
    rw [List.flatMap_cons, List.length_append, ih, length_blockBytes, List.length_cons]
    omega

theorem flatMap_blockBytes_injective {xs ys : List Block}
    (h : xs.flatMap blockBytes = ys.flatMap blockBytes) : xs = ys := by
  have hlen : xs.length = ys.length := by
    have h8 := congrArg List.length h
    rw [length_flatMap_blockBytes, length_flatMap_blockBytes] at h8
    omega
  have hbytes : xs.map blockBytes = ys.map blockBytes :=
    List.eq_iff_flatten_eq.2 ⟨h, by simp [Function.comp_def, length_blockBytes, hlen]⟩
  exact List.map_injective_iff.2 (fun _ _ => blockBytes_injective) hbytes

/-- The bytes of whole blocks are sent as those blocks. -/
theorem paddedBlocks_flatMap_blockBytes (xs : List Block) :
    paddedBlocks (xs.flatMap blockBytes) = xs := by
  apply flatMap_blockBytes_injective
  rw [flatMap_blockBytes_paddedBlocks, paddedString_eq_self_iff, length_flatMap_blockBytes,
    Nat.mul_mod_right]

theorem streamCommands_eq (m : Mode) (d : Dir) (bytes : List Byte) :
    streamCommands m d bytes = startInstr m d :: blockCommands (paddedBlocks bytes) := by
  rw [streamCommands, ← map_blockBytes_paddedBlocks, List.map_map]
  rfl

/-- The responses of a stream operation that returns these blocks: the START's carries no output (R177). -/
def streamResponses (ys : List Block) : List Response := ⟨0x00, []⟩ :: blockResponses ys

theorem status_of_mem_streamResponses {ys : List Block} {r : Response}
    (h : r ∈ streamResponses ys) : r.status = 0x00 := by
  obtain rfl | h := List.mem_cons.1 h
  · rfl
  · obtain ⟨y, -, rfl⟩ := List.mem_map.1 h
    rfl

/-- The result is the output blocks' bytes, with nothing before or after them (R174). -/
theorem resultOf_streamResponses (ys : List Block) :
    resultOf (streamResponses ys) = ys.flatMap blockBytes := by
  rw [streamResponses, resultOf, List.flatMap_cons, blockResponses, List.flatMap_map, List.nil_append]

/-- A stream operation on a core ready for it completes. -/
theorem ReadyFor.execAll_streamCommands {m : Mode} {s : State} (h : ReadyFor m s) (d : Dir)
    (bytes : List Byte) : ∃ t, execAll (streamCommands m d bytes) s = .next t ∧
      t.tx = s.tx ++ streamResponses (streamOutputs s.k m d s.seed (paddedBlocks bytes)) := by
  obtain ⟨t, ht, htx, -⟩ := h.execAll_stream d (paddedBlocks bytes)
  exact ⟨t, by rw [streamCommands_eq, ht], htx⟩

/-- Settles O52: one output block for each chunk. -/
theorem streamResultLength : Obligations.StreamResultLength := by
  unfold Obligations.StreamResultLength
  intro m d bytes s h
  obtain ⟨t, ht, htx⟩ := h.execAll_streamCommands d bytes
  refine ⟨t, _, ht, htx, fun r => status_of_mem_streamResponses, ?_⟩
  rw [resultOf_streamResponses, length_flatMap_blockBytes, length_streamOutputs, length_paddedBlocks,
    chunkCount]

/-- The DEC stream gives back the blocks of the ENC stream (R158), from cores that agree on the key and, in
a chaining mode, on the IV. -/
theorem ReadyFor.streamOutputs_dec_enc {m : Mode} {s s' : State} (h : ReadyFor m s) (h' : ReadyFor m s')
    (hk : s.k = s'.k) (hiv : m ≠ .ecb → s.iv = s'.iv) (xs : List Block) :
    streamOutputs s'.k m .dec s'.seed (streamOutputs s.k m .enc s.seed xs) = xs := by
  rw [← hk]
  refine Machine.streamOutputs_dec_enc s.k m xs fun hm => ?_
  rw [State.seed_of_ivv (h.iv hm), State.seed_of_ivv (h'.iv hm), hiv hm]

/-- Settles O53: the DEC stream returns the blocks sent, which are the padded string. -/
theorem paddingGap : Obligations.PaddingGap := by
  unfold Obligations.PaddingGap
  intro m bytes s s' h h' hk hiv
  obtain ⟨t, ht, htx⟩ := h.execAll_streamCommands .enc bytes
  obtain ⟨t', ht', htx'⟩ := h'.execAll_streamCommands .dec
    (resultOf (streamResponses (streamOutputs s.k m .enc s.seed (paddedBlocks bytes))))
  have hback : resultOf (streamResponses (paddedBlocks bytes)) = paddedString bytes := by
    rw [resultOf_streamResponses, flatMap_blockBytes_paddedBlocks]
  rw [resultOf_streamResponses, paddedBlocks_flatMap_blockBytes,
    h.streamOutputs_dec_enc h' hk hiv] at htx'
  exact ⟨t, t', _, _, ht, htx, ht', htx', hback, by rw [hback, paddedString_eq_self_iff]⟩

/-! ## Zero bytes show the keystream -/

/-- In CFB and OFB the output is the block XOR the keystream block (R148 to R151). -/
theorem cipherRow_keystream (k : KeyFile) {m : Mode} (hm : m = .cfb ∨ m = .ofb) (d : Dir)
    (x fb : Block) : (cipherRow k m d x fb).1 = bxor x (feistel hw k .enc fb) := by
  obtain rfl | rfl := hm <;> cases d <;> rfl

theorem zipWith_xor_zeros (l : List Byte) :
    List.zipWith (· ^^^ ·) (List.replicate l.length 0) l = l := by
  induction l with
  | nil => rfl
  | cons b l ih => simpa [List.replicate_succ] using ih

/-- Where a block's bytes are zero from `j` on, its XOR with another block shows that block's bytes. -/
theorem drop_blockBytes_bxor {x : Block} {j : Nat}
    (hx : (blockBytes x).drop j = List.replicate (8 - j) 0) (y : Block) :
    (blockBytes (bxor x y)).drop j = (blockBytes y).drop j := by
  have hlen : ((blockBytes y).drop j).length = 8 - j := by rw [List.length_drop, length_blockBytes]
  rw [blockBytes_bxor, List.drop_zipWith, hx, ← hlen, zipWith_xor_zeros]

/-- Settles O54: the output is the block XOR the keystream block, byte by byte. -/
theorem zeroBytesShowKeystream : Obligations.ZeroBytesShowKeystream := by
  unfold Obligations.ZeroBytesShowKeystream
  intro m d s x j hm h hx
  refine ⟨_, _, h.exec_block x, rfl, ?_⟩
  rw [cipherRow_keystream s.k hm, drop_blockBytes_bxor hx]

end Sys2Proof.Machine
end

section
/-!
Proofs for the family 60_exceptions: faults and the faulted core (R185 to R199). Two ideas carry the family.
The checks of a command are a list, and the code of the first that fails is the code the spec's fixed order
gives (R193). A faulted core can do one thing only: take a whole frame and answer it with its code, so a run
of it, however long, is a number of such answers (R195, R196).
-/

namespace Sys2Proof.Machine

/-! ## No step stops -/

theorem microExec_next (i : Instr) (s : State) : ∃ t, microExec i s = .next t := by
  obtain ⟨pl, -, h⟩ | h := microExec_cases i s
  · exact ⟨_, h⟩
  · exact ⟨_, h.trans (exec_eq i s)⟩

/-- Settles O10: no command stops at either granularity, and a running block has `RND` in 0..32. -/
theorem noStepStops : Obligations.NoStepStops := by
  unfold Obligations.NoStepStops
  exact fun s h => ⟨h.exists_next fun i u => ⟨_, exec_eq i u⟩, h.exists_next microExec_next⟩

/-! ## A faulted core -/

/-- Settles O29: at the port every frame is answered alike, legal or not, and so is every command. -/
theorem faultedCoreAnswersFirstCode : Obligations.FaultedCoreAnswersFirstCode := by
  unfold Obligations.FaultedCoreAnswersFirstCode
  refine ⟨fun s cmd pl rest hp hr hl hrx => step_faulted_frame hr hl hrx hp, fun s i hp => ?_⟩
  rw [exec_eq, afterCommand_faulted hp]
  rfl

/-- With no whole frame at its port a core waits (R60). -/
theorem step_wait {s : State} (hp : s.running = false) (hr : s.rst = false)
    (hs : splitFrame s.rx = none) : step s = .next s := by
  have hd : decode s.rx = .wait := by rw [decode, hs]
  rw [step, fetchStep_accept exec s hr hp, acceptFrame_wait exec hd]

/-- A faulted core that has answered `m` frames and has the bytes `rest` still at its port (R195). -/
def State.answered (s : State) (m : Nat) (rest : List Byte) : State :=
  { s with rx := rest, tx := s.tx ++ List.replicate m ⟨s.err, []⟩ }

theorem State.answered_zero (s : State) : s.answered 0 s.rx = s := by
  simp [State.answered]

theorem State.answered_one (s : State) (rest : List Byte) : s.answered 1 rest = afterAnswer s rest := rfl

/-- The code does not change, so the answers add up. -/
theorem State.answered_answered (s : State) (m n : Nat) (bytes rest : List Byte) :
    (s.answered m bytes).answered n rest = s.answered (m + n) rest := by
  simp [State.answered]

/-- Everything a faulted core can do in a step without reset: wait, or answer one frame. -/
theorem step_faulted {s : State} (hp : s.ph = .fault) (hr : s.rst = false) :
    ∃ m rest, step s = .next (s.answered m rest) := by
  cases hs : splitFrame s.rx with
  | none =>
    have hrun : s.running = false := by rw [State.running, hp]
    exact ⟨0, s.rx, by rw [step_wait hrun hr hs, State.answered_zero]⟩
  | some f =>
    obtain ⟨cmd, pl, rest⟩ := f
    obtain ⟨hrx, hl⟩ := splitFrame_some hs
    exact ⟨1, rest, by rw [step_faulted_frame hr hl hrx hp, State.answered_one]⟩

/-- However many steps a faulted core makes without reset, they answer some frames and do nothing else. -/
theorem run_faulted (n : Nat) : ∀ {s : State}, s.ph = .fault → s.rst = false →
    ∃ m rest, Host.Core.run Sys2Proof.core n s = .next (s.answered m rest) := by
  induction n with
  | zero => exact fun {s} _ _ => ⟨0, s.rx, by rw [State.answered_zero]; rfl⟩
  | succ n ih =>
    intro s hp hr
    obtain ⟨m, bytes, hstep⟩ := step_faulted hp hr
    obtain ⟨k, rest, hrun⟩ := ih (s := s.answered m bytes) hp hr
    exact ⟨m + k, rest, by rw [core_run_next hstep, hrun, State.answered_answered]⟩

theorem step_reset {s : State} (hr : s.rst = true) : step s = .next s.resetEvent :=
  fetchStep_reset exec s hr

/-- Settles O30: a run without reset only answers, and the reset event gives `PH` and the flags R26 names. -/
theorem faultIsStickyUntilReset : Obligations.FaultIsStickyUntilReset := by
  unfold Obligations.FaultIsStickyUntilReset
  exact ⟨fun n _ hp hr => run_faulted n hp hr,
    fun s _ hr => ⟨s.resetEvent, step_reset hr, rfl, rfl, rfl, rfl, rfl⟩⟩

/-! ## Fault entry -/

/-- A command that leaves a core faulted that was not has taken fault entry: its effect leaves the core idle
or in the phase it was in. -/
theorem CommandOutcome.eq_faultEntry {i : Instr} {s t : State} (ho : CommandOutcome i s t)
    (hp : s.ph ≠ .fault) (ht : t.ph = .fault) : ∃ c, t = s.faultEntry c := by
  cases ho with
  | answer h => exact absurd h hp
  | entry h c => exact ⟨c, rfl⟩
  | ldkey h pl hi hl => exact absurd ht hp
  | ldiv h pl hi hl => exact absurd ht hp
  | start h m d hi hk hiv => exact absurd ht hp
  | block h pl hi hl hk hs => exact absurd ht nofun

/-- An idle core that a frame leaves faulted has taken fault entry on it (R194). -/
theorem step_idle_frame_fault {s t : State} {cmd : Byte} {pl rest : List Byte} (hp : s.ph = .idle)
    (hr : s.rst = false) (hl : pl.length ≤ 255) (hrx : s.rx = rawFrame cmd pl ++ rest)
    (hst : step s = .next t) (ht : t.ph = .fault) : ∃ c, t = afterFault s rest (faultCode c) := by
  have hrun : s.running = false := State.running_of_idle hp
  have hnf : (s.withRx rest).ph ≠ .fault := State.ph_ne_fault_of_idle hp
  cases hd : decodeFrame cmd pl with
  | error why =>
    rw [step_illegal_frame hrun hr hl hrx hd, illegalFrame_of_not_fault hnf] at hst
    cases hst
    exact ⟨.illCmd, faultEntry_withRx s rest .illCmd⟩
  | ok i =>
    rw [step_command_frame hrun hr hl hrx hd] at hst
    cases hst
    obtain ⟨c, hc⟩ := (afterCommand_outcome i (s.withRx rest)).eq_faultEntry hnf ht
    exact ⟨c, hc.trans (faultEntry_withRx s rest c)⟩

/-- Settles O28: with reset asserted the core becomes idle; otherwise a frame that leaves it faulted has
been answered by fault entry, and with no whole frame it waits. -/
theorem faultEntryWritesNothingElse : Obligations.FaultEntryWritesNothingElse := by
  unfold Obligations.FaultEntryWritesNothingElse
  intro s t hp hst
  cases hr : s.rst with
  | true =>
    rw [step_reset hr] at hst
    cases hst
    exact ⟨fun _ _ _ _ _ ht => absurd ht nofun, fun _ => rfl⟩
  | false =>
    refine ⟨fun cmd pl rest hl hrx ht => ?_, fun hs => ?_⟩
    · obtain ⟨c, rfl⟩ := step_idle_frame_fault hp hr hl hrx hst ht
      exact ⟨rfl, faultCode_ne_zero c⟩
    · rw [step_wait (State.running_of_idle hp) hr hs] at hst
      cases hst
      exact hp

/-! ## The first check that fails -/

/-- The code of the first check that fails, 0 when all pass (R185, R193). -/
def firstCode (cs : List (Option FaultCause)) : Byte := (firstFault cs).elim 0 faultCode

@[simp] theorem firstCode_nil : firstCode [] = 0 := rfl

@[simp] theorem firstCode_failIf_cons (b : Bool) (c : FaultCause) (cs : List (Option FaultCause)) :
    firstCode (failIf b c :: cs) = if b then faultCode c else firstCode cs := by
  cases b <;> rfl

/-- The code that R193 gives an illegal frame. -/
theorem reportedCode_of_illegal {cmd : Byte} {pl : List Byte} (h : IllegalByR67 cmd pl) (s : State) :
    reportedCode cmd pl s = 0x01 := by
  unfold IllegalByR67 at h
  exact if_pos (by omega)

theorem reportedCode_ldkey (pl : List Byte) (s : State) :
    reportedCode (cmdByte (.ldkey pl)) pl s = firstCode [checkKeyLen pl] := by
  have hcmd : (cmdByte (.ldkey pl)).toNat = 0x10 := rfl
  simp [reportedCode, hcmd, checkKeyLen, faultCode]

theorem reportedCode_ldiv (pl : List Byte) (s : State) :
    reportedCode (cmdByte (.ldiv pl)) pl s = firstCode [checkIvLen pl] := by
  have hcmd : (cmdByte (.ldiv pl)).toNat = 0x20 := rfl
  simp [reportedCode, hcmd, checkIvLen, faultCode]

/-- The mode field of a START is 0 exactly in ECB (R61, R63). -/
theorem toNat_startCmd_mod_four (m : Mode) (d : Dir) : (startCmd m d).toNat % 4 = 0 ↔ m = .ecb := by
  cases m <;> cases d <;> decide

theorem reportedCode_start (m : Mode) (d : Dir) (s : State) :
    reportedCode (startCmd m d) [] s = firstCode [checkKey s, checkIv m s] := by
  have hcmd := toNat_startCmd m d
  have hdir := d.code.isLt
  have hmode := m.code.isLt
  have hop : (startCmd m d).toNat / 16 = 3 := by omega
  have hlow : ¬ 8 ≤ (startCmd m d).toNat % 16 := by omega
  simp [reportedCode, hop, hlow, toNat_startCmd_mod_four, checkKey, checkIv, faultCode]

theorem reportedCode_block (pl : List Byte) (s : State) :
    reportedCode (cmdByte (.block pl)) pl s = firstCode (blockChecks pl s) := by
  have hcmd : (cmdByte (.block pl)).toNat = 0x40 := rfl
  simp [reportedCode, hcmd, blockChecks, checkBlkLen, checkKey, checkStream, faultCode]

/-- `t` has recorded this fault code, and is faulted exactly when it is not 0. -/
structure Reports (code : Byte) (t : State) : Prop where
  err : t.err = code
  fault : t.ph = .fault ↔ code ≠ 0

theorem Reports.faultEntry (s : State) (c : FaultCause) : Reports (faultCode c) (s.faultEntry c) :=
  ⟨rfl, iff_of_true rfl (faultCode_ne_zero c)⟩

theorem Reports.none {t : State} (hp : t.ph = .idle) (he : t.err = 0) : Reports 0 t :=
  ⟨he, iff_of_false (State.ph_ne_fault_of_idle hp) (not_not.2 rfl)⟩

/-- A command reports the first of its checks that fails, when its effect reports none. -/
theorem Reports.runCommand {cs : List (Option FaultCause)} {e : State → State} {s : State}
    (hp : s.ph ≠ .fault) (he : Reports 0 (e s)) : Reports (firstCode cs) (runCommand cs e s) := by
  obtain ⟨hf, -⟩ | ⟨-, c, hc, h⟩ | ⟨-, hc, h⟩ := runCommand_cases cs e s
  · exact absurd hf hp
  · rw [h, firstCode, hc]
    exact .faultEntry s c
  · rw [h, firstCode, hc]
    exact he

/-- The checks of each command, in the order it makes them, are those of R193. -/
theorem Reports.afterCommand {s : State} (hp : s.ph = .idle) (he : s.err = 0) (i : Instr) :
    Reports (reportedCode (cmdByte i) i.payload s) (afterCommand i s) := by
  have hnf : s.ph ≠ .fault := State.ph_ne_fault_of_idle hp
  cases i using instr_forms with
  | ldkey pl =>
    rw [Instr.payload, reportedCode_ldkey, Machine.afterCommand]
    exact .runCommand hnf (.none hp he)
  | ldiv pl =>
    rw [Instr.payload, reportedCode_ldiv, Machine.afterCommand]
    exact .runCommand hnf (.none hp he)
  | start m d =>
    rw [cmdByte_startInstr, payload_startInstr, reportedCode_start, afterCommand_startInstr, startStream]
    exact .runCommand hnf (.none hp he)
  | block pl =>
    rw [Instr.payload, reportedCode_block, Machine.afterCommand, runBlock]
    exact .runCommand hnf (.none rfl (by rwa [State.retire_err, State.engine_err, State.issue_err]))

/-- What an idle core reports for a frame, legal or not (R193). -/
theorem step_idle_frame_reports {s : State} {cmd : Byte} {pl rest : List Byte} (hp : s.ph = .idle)
    (hr : s.rst = false) (he : s.err = 0) (hl : pl.length ≤ 255) (hrx : s.rx = rawFrame cmd pl ++ rest) :
    ∃ t, step s = .next t ∧ Reports (reportedCode cmd pl s) t := by
  by_cases hill : IllegalByR67 cmd pl
  · rw [reportedCode_of_illegal hill]
    exact ⟨_, step_idle_illegal_frame hr hl hrx hp hill, .faultEntry (s.withRx rest) .illCmd⟩
  · obtain ⟨i, rfl, rfl⟩ := exists_instr_of_legal hill
    exact ⟨_, step_idle_command_frame hp hr rfl hl hrx, .afterCommand (s := s.withRx rest) hp he i⟩

/-- Settles O27: each command makes its checks in the order of R193, and an illegal frame comes before. -/
theorem firstFailingCheckIsReported : Obligations.FirstFailingCheckIsReported := by
  unfold Obligations.FirstFailingCheckIsReported
  intro s cmd pl rest hr hl hrx
  refine ⟨step_faulted_frame hr hl hrx, fun hp he => ?_⟩
  obtain ⟨t, hst, hrep⟩ := step_idle_frame_reports hp hr he hl hrx
  exact ⟨t, hst, hrep.err, hrep.fault⟩

end Sys2Proof.Machine
end

section
/-!
Proofs for the family 70_reset_and_hazards: the reset event (R210) and the hold while a block is running
(R213). The bytes at the port are whole frames and an unfinished rest, and the reset event drops just that
rest. A running block ends because `RND` counts to 32, and then one RETIRE.
-/

namespace Sys2Proof.Machine

/-! ## The reset event -/

/-- The bytes at the port are whole frames and then a rest that holds none: each frame split off is shorter
by at least two bytes, so as much fuel as there are bytes is enough. -/
theorem wholeFrames_split (n : Nat) : ∀ {bytes : List Byte}, bytes.length ≤ n →
    ∃ (fs : List (Byte × List Byte)) (tail : List Byte), (∀ f ∈ fs, f.2.length ≤ 255) ∧
      wholeFrames n bytes = fs.flatMap (fun f => rawFrame f.1 f.2) ∧
      bytes = wholeFrames n bytes ++ tail ∧ splitFrame tail = none := by
  induction n with
  | zero =>
    intro bytes hn
    have hnil : bytes = [] := List.eq_nil_of_length_eq_zero (Nat.le_zero.1 hn)
    exact ⟨[], [], nofun, rfl, hnil, rfl⟩
  | succ n ih =>
    intro bytes hn
    cases hs : splitFrame bytes with
    | none =>
      rw [wholeFrames, hs]
      exact ⟨[], bytes, nofun, rfl, rfl, hs⟩
    | some f =>
      obtain ⟨cmd, pl, rest⟩ := f
      obtain ⟨hbytes, hl⟩ := splitFrame_some hs
      have hrest : rest.length ≤ n := by
        simp only [hbytes, rawFrame, List.cons_append, List.length_cons, List.length_append] at hn
        omega
      obtain ⟨fs, tail, hfs, hwhole, hsplit, htail⟩ := ih hrest
      have hframe : wholeFrames (n + 1) bytes = rawFrame cmd pl ++ wholeFrames n rest := by
        rw [wholeFrames, hs]
      refine ⟨(cmd, pl) :: fs, tail, List.forall_mem_cons.2 ⟨hl, hfs⟩, ?_, ?_, htail⟩
      · rw [hframe, hwhole, List.flatMap_cons]
      · rw [hframe, List.append_assoc, ← hsplit, hbytes]

/-- Settles O31: both machines take the reset event, which keeps the whole frames at the port. -/
theorem resetFromAnyState : Obligations.ResetFromAnyState := by
  unfold Obligations.ResetFromAnyState
  intro s hr
  exact ⟨s.resetEvent, step_reset hr, fetchStep_reset microExec s hr, rfl, rfl, rfl, rfl, rfl, rfl, rfl,
    wholeFrames_split s.rx.length le_rfl⟩

/-! ## The hold while a block is running -/

section running
variable {s : State} {x : Block} (hp : s.ph = .run x) (hr : s.rst = false)
include hp hr

theorem step_run : step s = runStep hw x s := fetchStep_run exec s x hr hp

/-- The sequencer does not touch the port. -/
theorem microStep_run_holds_port (hn : s.rnd.toNat ≤ 32) :
    ∃ t, microStep s = .next t ∧ t.rx = s.rx := by
  rw [microStep_run hp hr]
  obtain ⟨-, hround⟩ | ⟨-, hretire⟩ | ⟨habove, -⟩ := runStep_cases hw x s
  · exact ⟨_, hround, rfl⟩
  · exact ⟨_, hretire, rfl⟩
  · omega

/-- A running block retires after the ROUNDs that are left, which wrote the datapath registers only
(R122, R153). -/
theorem microRun_to_retire (hn : s.rnd.toNat ≤ 32) : ∃ a b,
    microRun (33 - s.rnd.toNat) s = .next (State.retire hw x (s.setEngine a b 32)) := by
  have hsum : s.rnd.toNat + (32 - s.rnd.toNat) = 32 := by omega
  have hrounds := microRun_rounds (32 - s.rnd.toNat) hp hr hsum.le
  have hcount := State.rounds_rnd_toNat hw (keyOrder s.mode s.dir) (32 - s.rnd.toNat) hsum.le
  obtain ⟨a, b, r, hwrites⟩ := rounds_writes hw (keyOrder s.mode s.dir) (32 - s.rnd.toNat) s
  rw [hwrites, hsum] at hcount
  obtain rfl : r = 32 := BitVec.eq_of_toNat_eq hcount
  have hretire : microStep (s.setEngine a b 32) = .next (State.retire hw x (s.setEngine a b 32)) :=
    microStep_retire hp hr rfl
  refine ⟨a, b, ?_⟩
  calc microRun (33 - s.rnd.toNat) s
      = microRun (32 - s.rnd.toNat + 1) s := by congr 1; omega
    _ = microRun 1 (s.setEngine a b 32) := microRun_add 1 (hrounds.trans (congrArg _ hwrites))
    _ = .next (State.retire hw x (s.setEngine a b 32)) := microRun_next hretire

end running

/-- Settles O45: no micro-step of the sequencer touches the port, and the last one is RETIRE. -/
theorem holdLiftsAtRetire : Obligations.HoldLiftsAtRetire := by
  unfold Obligations.HoldLiftsAtRetire
  intro s x hp hr hn
  obtain ⟨t, hmicro, hrx⟩ := microStep_run_holds_port hp hr hn
  obtain ⟨a, b, hrun⟩ := microRun_to_retire hp hr hn
  refine ⟨⟨t, hmicro, ?_, hrx⟩, _, hrun, rfl, rfl, ?_⟩
  · rw [step_run hp hr, ← microStep_run hp hr, hmicro]
  · rw [State.retire_tx, List.length_append]
    rfl

end Sys2Proof.Machine
end
